-- ==== Sys2Proof/Word.lean ====
section
/-! DEFINITION. The widths of the block: bytes, the 32-bit command word, the 16-bit length type.

Rules R9 (bits are numbered from the least significant one, every value is unsigned), R67 (the command
word has 32 bits) and R7 (`LENW` is 16 bits). -/

namespace Sys2Proof

/-- One byte: a mapped 8-bit register, a byte of the caller's buffer, an ErrorMask (rules R26, R49, R78). -/
abbrev Byte := BitVec 8

/-- The command word presented at the command port (rule R67). -/
abbrev CommandWord := BitVec 32

/-- `length`, `capacity`, `read_count` and buffer indices: `LENW` = 16 bits (rule R7). -/
abbrev Len := BitVec 16

/-- `v[i]` of rule R9: bit `i`, bit 0 the least significant; false beyond the width. -/
abbrev bit {w : Nat} (v : BitVec w) (i : Nat) : Bool := v.getLsbD i

end Sys2Proof
end

