-- ==== Sys2Proof/Syntax.lean ====
section
/-! DEFINITION. The commands of the block as syntax: one constructor of `Instr` for every row of the
opcode table (rule R69), and the Configuration they carry (rules R72 to R75). -/

namespace Sys2Proof

/-- StopBits (rule R73): `ONE` is 0 and `TWO` is 1 in Control C bit 3. -/
inductive StopBits where
  | one
  | two
  deriving DecidableEq, Repr

/-- Parity (rule R74): the three valid enumerants. The 2-bit pattern 1 is not a Parity, so it has no constructor:
a `Configuration` built from this type is always valid in the sense of rule R75. -/
inductive Parity where
  | none
  | even
  | odd
  deriving DecidableEq, Repr

/-- A Configuration, "the intended operating parameters of one peripheral" (rule R72): six fields.
The double-speed and enable flags are booleans, the divisor has 12 bits. -/
structure Configuration where
  baudDivisor     : BitVec 12
  useDoubleSpeed  : Bool
  receiveEnabled  : Bool
  transmitEnabled : Bool
  stopBits        : StopBits
  parity          : Parity
  deriving DecidableEq, Repr

/-- The startup configuration, all-disabled (rule R38). -/
def Configuration.startup : Configuration :=
  { baudDivisor := 0, useDoubleSpeed := false, receiveEnabled := false, transmitEnabled := false,
    stopBits := .one, parity := .none }

/-- The ten commands of the opcode table (rule R69), with the operands of their formats (rule R68). The buffer of
PUTN, GETN, GETS and PUTS is not an operand of the word: it comes through the buffer port (rule R49). -/
inductive Instr where
  /-- `CONFIGURE c` (rule R92). -/
  | configure (c : Configuration)
  /-- `GETCONFIG` (rule R96). -/
  | getconfig
  /-- `GETERROR` (rule R97). -/
  | geterror
  /-- `PUTC byte` (rule R105). -/
  | putc (byte : Byte)
  /-- `GETC` (rule R106). -/
  | getc
  /-- `PUTN length` (rule R110). -/
  | putn (length : Len)
  /-- `GETN length` (rule R111). -/
  | getn (length : Len)
  /-- `GETS capacity, delimiter` (rule R112). -/
  | gets (capacity : Len) (delimiter : Byte)
  /-- `PUTS` (rule R113). -/
  | puts
  /-- `FLUSHRX` (rule R117). -/
  | flushrx
  deriving DecidableEq, Repr

/-- Why a command word is not a command (rules R71, R80, R81): the decoder's rejections, by name. -/
inductive Reject where
  /-- The opcode is 0x0 or 0xB to 0xF (rule R80). -/
  | reservedOpcode
  /-- The opcode is defined and a must-be-zero bit of its format is 1 (rule R71). -/
  | mustBeZero
  /-- CONFIGURE with the parity pattern `0b01` (rule R81). -/
  | reservedParity
  deriving DecidableEq, Repr

end Sys2Proof
end

