-- ==== Sys2Proof/WellFormed.lean ====
section
/-! DEFINITION. Which instructions are well formed. The types of `Instr` already rule out every operand that does not
fit its field and the parity pattern 1 (rules R70 and R75); what is left is the one operand value the spec puts outside
the command set: GETS with `capacity = 0` (rule R112: "`capacity = cmd[15:0]`, at least 1"). -/

namespace Sys2Proof

/-- The operand constraint of rule R112: GETS has a capacity of at least 1. Every other instruction is well formed. -/
def Instr.wf : Instr → Bool
  | .configure _ => true
  | .getconfig => true
  | .geterror => true
  | .putc _ => true
  | .getc => true
  | .putn _ => true
  | .getn _ => true
  | .gets capacity _ => capacity != 0
  | .puts => true
  | .flushrx => true

end Sys2Proof
end

