-- ==== Sys2Proof/Decode.lean ====
section
/-! DEFINITION. Command words (rules R67 to R72, R80, R81): the packed Configuration, the decoder, total on every
32-bit word and rejecting by name, and the encoder, both written from the format tables of rule R68. -/

namespace Sys2Proof

/-! ### The packed Configuration (rules R72 to R74) -/

/-- The number of a StopBits (rule R73). -/
def StopBits.code : StopBits → BitVec 1
  | .one => 0#1
  | .two => 1#1

/-- The StopBits with a number (rule R73). -/
def StopBits.ofCode (v : BitVec 1) : StopBits :=
  if v = 0#1 then .one else .two

/-- The number of a Parity (rule R74): NONE 0, EVEN 2, ODD 3. -/
def Parity.code : Parity → BitVec 2
  | .none => 0#2
  | .even => 2#2
  | .odd => 3#2

/-- The Parity with a number (rule R74); the pattern 1 is no Parity. -/
def Parity.ofCode (v : BitVec 2) : Option Parity :=
  if v = 0#2 then Option.some Parity.none
  else if v = 2#2 then Option.some Parity.even
  else if v = 3#2 then Option.some Parity.odd
  else Option.none

/-- The 18-bit packed form of rule R72: parity in 17:16, stop bits in 15, transmit in 14, receive in 13,
double-speed in 12, divisor in 11:0. -/
def Configuration.pack (c : Configuration) : BitVec 18 :=
  c.parity.code ++ c.stopBits.code ++ BitVec.ofBool c.transmitEnabled ++ BitVec.ofBool c.receiveEnabled
    ++ BitVec.ofBool c.useDoubleSpeed ++ c.baudDivisor

/-- The Configuration a packed form stands for (rule R72); none where the parity field is `0b01`
(rule R75: not a valid Configuration). -/
def Configuration.unpack (v : BitVec 18) : Option Configuration :=
  match Parity.ofCode (v.extractLsb' 16 2) with
  | none => none
  | some p => some
      { baudDivisor := v.extractLsb' 0 12
        useDoubleSpeed := bit v 12
        receiveEnabled := bit v 13
        transmitEnabled := bit v 14
        stopBits := StopBits.ofCode (v.extractLsb' 15 1)
        parity := p }

/-! ### The decoder (rules R68 to R71, R80, R81) -/

/-- Bits 31:28 of the word (rule R67). -/
def opcodeOf (w : CommandWord) : BitVec 4 := w.extractLsb' 28 4

/-- Format N (rule R68): no operand, bits 27:0 are 0. -/
def decodeN (i : Instr) (w : CommandWord) : Except Reject Instr :=
  if w.extractLsb' 0 28 = 0#28 then .ok i else .error .mustBeZero

/-- Format C (rule R68): a Configuration in bits 17:0, bits 27:18 are 0; the parity pattern `0b01` is reserved
(rule R81). -/
def decodeC (w : CommandWord) : Except Reject Instr :=
  if w.extractLsb' 18 10 = 0#10 then
    match Configuration.unpack (w.extractLsb' 0 18) with
    | some c => .ok (.configure c)
    | none => .error .reservedParity
  else .error .mustBeZero

/-- Format B (rule R68): a byte in bits 7:0, bits 27:8 are 0. -/
def decodeB (f : Byte → Instr) (w : CommandWord) : Except Reject Instr :=
  if w.extractLsb' 8 20 = 0#20 then .ok (f (w.extractLsb' 0 8)) else .error .mustBeZero

/-- Format L (rule R68): a length in bits 15:0, bits 27:16 are 0. -/
def decodeL (f : Len → Instr) (w : CommandWord) : Except Reject Instr :=
  if w.extractLsb' 16 12 = 0#12 then .ok (f (w.extractLsb' 0 16)) else .error .mustBeZero

/-- Format S (rule R68): the capacity in bits 15:0, the delimiter in bits 23:16, bits 27:24 are 0. -/
def decodeS (f : Len → Byte → Instr) (w : CommandWord) : Except Reject Instr :=
  if w.extractLsb' 24 4 = 0#4 then .ok (f (w.extractLsb' 0 16) (w.extractLsb' 16 8)) else .error .mustBeZero

/-- The decoder: opcode values of rule R69, formats of rule R68; everything else is a reserved encoding (rule R80). -/
def decode (w : CommandWord) : Except Reject Instr :=
  match (opcodeOf w).toNat with
  | 0x1 => decodeC w
  | 0x2 => decodeN .getconfig w
  | 0x3 => decodeN .geterror w
  | 0x4 => decodeB .putc w
  | 0x5 => decodeN .getc w
  | 0x6 => decodeL .putn w
  | 0x7 => decodeL .getn w
  | 0x8 => decodeS .gets w
  | 0x9 => decodeN .puts w
  | 0xA => decodeN .flushrx w
  | _ => .error .reservedOpcode

/-! ### The encoder (rules R68 and R69) -/

/-- The opcode of an instruction (rule R69). -/
def Instr.opcode : Instr → BitVec 4
  | .configure _ => 0x1#4
  | .getconfig => 0x2#4
  | .geterror => 0x3#4
  | .putc _ => 0x4#4
  | .getc => 0x5#4
  | .putn _ => 0x6#4
  | .getn _ => 0x7#4
  | .gets _ _ => 0x8#4
  | .puts => 0x9#4
  | .flushrx => 0xA#4

/-- Bits 27:0 of an instruction's word: its operand fields, every other bit 0 (rule R68). -/
def Instr.operandBits : Instr → BitVec 28
  | .configure c => 0#10 ++ c.pack
  | .getconfig => 0#28
  | .geterror => 0#28
  | .putc byte => 0#20 ++ byte
  | .getc => 0#28
  | .putn length => 0#12 ++ length
  | .getn length => 0#12 ++ length
  | .gets capacity delimiter => 0#4 ++ delimiter ++ capacity
  | .puts => 0#28
  | .flushrx => 0#28

/-- The command word of an instruction (rules R67 to R69). -/
def encode (i : Instr) : CommandWord := i.opcode ++ i.operandBits

/-! ### The opcode table's own numbering -/

/-- The instruction the decoder reads from an opcode-table word `w` of `nbits` bits: the table numbers the one
32-bit word as rule R67 does, and bits above `nbits` are 0. A command is a record of fields and has no byte order
(rule R52), so the word is the decoder's whole input. -/
def decodeTableWord (nbits w : Nat) : Option Instr :=
  (decode (BitVec.ofNat 32 (w % 2 ^ nbits))).toOption

end Sys2Proof
end

