-- ==== Sys2Proof/Machine/Flags.lean ====
section
/-! DEFINITION. The flags of the block (rule R22): the status flags of Control A as bits of a byte, and the ErrorMask with
its decoder and aggregator (rules R78, R79, R98, R114). -/

namespace Sys2Proof.Machine

/-- Control A from its eight bits, DRDY in bit 7 down to MPCM in bit 0 (rule R27). -/
def ctrlAByte (drdy txc bempty ferr ovr perr u2x mpcm : Bool) : Byte :=
  BitVec.ofBool drdy ++ BitVec.ofBool txc ++ BitVec.ofBool bempty ++ BitVec.ofBool ferr ++ BitVec.ofBool ovr
    ++ BitVec.ofBool perr ++ BitVec.ofBool u2x ++ BitVec.ofBool mpcm

/-- `a[7]`, data-ready (rule R102). -/
def dataReady (a : Byte) : Bool := bit a 7

/-- `a[5]`, buffer-empty (rule R102). -/
def bufferIsEmpty (a : Byte) : Bool := bit a 5

/-- `NONE`, success (rule R78). -/
def ErrorMask.none : Byte := 0x00

/-- `DISABLED`: the requested direction is not enabled (rule R78, `DISABLED_CODE`). -/
def ErrorMask.disabled : Byte := 0x01

/-- `PARITY` (rule R78). -/
def ErrorMask.parity : Byte := 0x04

/-- `OVERRUN` (rule R78). -/
def ErrorMask.overrun : Byte := 0x08

/-- `FRAME` (rule R78). -/
def ErrorMask.frame : Byte := 0x10

/-- `HWERR`, the mask of the three hardware flags (rule R78). -/
def ErrorMask.hardware : Byte := 0x1C

/-- The error decoder: `decErr(a) = a & 0x1C` (rule R98). -/
def decErr (a : Byte) : Byte := a &&& ErrorMask.hardware

/-- The error aggregator: `x[err] | e` (rules R23 and R114). -/
def aggregate (err e : Byte) : Byte := err ||| e

end Sys2Proof.Machine
end

