-- ==== Sys2Proof/Config.lean ====
section
/-! DEFINITION. The parameters of an implementation (rule R7), the ports of the machine right after reset, and the one
free value (rule R34, bits 15:12 of the baud register on read). -/

namespace Sys2Proof.Config

/-- How the register bus carries the 16-bit baud access (rules R7, R55; 92_eei_decisions.md D11). -/
inductive BaudBus where
  /-- The bus carries 16-bit accesses: one transaction (the spec's default). -/
  | whole
  /-- `BAUD_SPLIT`: two byte transactions, high byte first on write and low byte first on read. -/
  | split
  deriving DecidableEq, Repr

/-- The parameters of one peripheral (rules R7, R14 and R24). Every peripheral of a `State` carries its own and no step
changes them, so a statement about every state is a statement about every value of them (log entry 1). -/
structure Params where
  /-- `BASE`, the base address of the register block. -/
  base : Nat
  /-- The width of an address of the register space (rule R47 leaves it to the platform). -/
  addrBits : Nat
  /-- `CACHED`: the instance holds `cached_configuration` (true), or re-reads the hardware (false). -/
  cached : Bool
  /-- `CSZ8`: the character-size code for 8 data bits. -/
  csz8 : BitVec 2
  /-- How BAUD is accessed. -/
  bus : BaudBus
  /-- `RESET_A`: Control A after hardware reset. -/
  resetA : Byte
  /-- `RESET_B`: Control B after hardware reset. -/
  resetB : Byte
  /-- `RESET_C`: Control C after hardware reset. -/
  resetC : Byte
  /-- `RESET_BAUD`: the baud register after hardware reset. -/
  resetBaud : BitVec 16
  deriving DecidableEq, Repr

/-- What the spec asks of `BASE`: even (rule R53, D31), and the block `BASE .. BASE + 6` below the top of the address
space (rule R157, D35). -/
def Params.wf (p : Params) : Bool :=
  p.base % 2 == 0 && decide (p.base + 6 < 2 ^ p.addrBits)

/-- Bits 15:12 of the `n`-th read of the baud register: the spec gives them no value (rule R34; 93 entry U5), so they
are a FREE VALUE with no body (log entry 11). -/
opaque baudUnspecified : Nat → BitVec 4

/-- The parameters of the one port of the machine after reset: PRESUMED, the ATmega328P's USART0 (93 entries G1, G2, G5;
log entries 1 and 2), with the spec's own default `CACHED = true` (D1). -/
def port0 : Params :=
  { base := 0xC0, addrBits := 16, cached := true, csz8 := 3#2, bus := .whole,
    resetA := 0x20, resetB := 0x00, resetC := 0x06, resetBaud := 0x0000 }

/-- The parameters of the further ports of the machine after reset: none (`NPORTS` = 1; PRESUMED, log entry 1). -/
def morePorts : List Params := []

end Sys2Proof.Config
end

