-- ==== Sys2Proof/Machine/State.lean ====
section
/-! DEFINITION. The state of the machine as plain data (10_state.md), the reasons a step can stop, and the state after
reset (rule R45).

The machine is `NPORTS` peripherals (rules R25, R133): `self`, the one whose command port the next step serves, and the
`others`. Each peripheral holds everything 10_state.md gives one instance, its parameters, what its environment (the host
and the line side) has still to do, and the observation of rule R15. -/

namespace Sys2Proof.Machine

/-! ### Why a step stops -/

/-- Reasons for which the machine is in a condition the spec calls a fault or gives no step. -/
inductive Fault where
  /-- Raised by GETCONFIG in the read-back variant at its last read, when Control C holds the parity pattern `0b01`
  (rule R90 and 93 entry U11: "a model should treat the GETCONFIG that meets it as a fault"). Safe. -/
  | parityNotValid
  /-- Raised by a meaning whose peripheral stands in a phase that belongs to another command (rule R19: every phase but
  `IDLE` belongs to a command in progress). No run from reset reaches it. Safe. -/
  | phaseOfOtherCommand
  /-- Raised by the fetch when a command is in progress and the latched word is not a command. No run from reset
  reaches it. Safe. -/
  | latchedWordNotCommand
  deriving DecidableEq, Repr

/-- Reasons for which the spec gives a command, a word or an access no behaviour. -/
inductive Refusal where
  /-- An arm of `exec` that has no meaning yet. No arm of this model uses it. -/
  | notModelled (mnemonic : String)
  /-- Raised by the fetch: the word at the command port is not a command (rules R71, R80, R81: "A model should
  refuse it"). Safe. -/
  | reservedWord (why : Reject)
  /-- Raised by GETS with `capacity = 0` when it is accepted (rule R112 corner case d). Safe. -/
  | capacityZero
  /-- Raised by a buffer access of PUTN, GETN or GETS at an index the caller's buffer does not have (rule R116, 93 entry
  U15). Safe. -/
  | outsideBuffer (index : Len)
  /-- Raised by PUTS when the buffer ends with no 0x00 byte before its end (rule R113 corner case c, 93 entry U10). Safe. -/
  | unterminatedString
  /-- Raised by a register access at an address that holds no register, the hole at +3 among them (rule R36), or by a
  16-bit access anywhere but at +4 (rule R54). No command makes such an access. Safe. -/
  | unmappedAddress (address : Nat)
  /-- Raised by every register access of a peripheral whose `BASE` is odd or whose block passes the top of the address
  space (rules R53 and R157; D31 and D35: outside the spec). Safe. -/
  | badRegisterBlock
  /-- Raised by a read of DATA while no byte waits (rule R35, 93 entry U13). No run of commands reaches it. Safe. -/
  | dataReadNotReady
  /-- Raised by a write of DATA while BEMPTY is 0 (rule R35, 93 entry U14). No run of commands reaches it. Safe. -/
  | dataWriteNotEmpty
  deriving DecidableEq, Repr

/-! ### The sequencer (rules R17 to R20) -/

/-- The sequencer's phase, its program counter (rule R19). `cfgBaudLow` and `rbBaudHigh` are the second halves of `CFG_BAUD`
and `RB_BAUD` on a bus that splits the baud access into two byte accesses (rule R55): the line side may act between the
halves (rule R154; log entry 19). -/
inductive Phase where
  | idle
  | cfgBOff | cfgA | cfgC | cfgBaud | cfgBaudLow | cfgBOn
  | rbA | rbB | rbC | rbBaud | rbBaudHigh
  | geA
  | gateB
  | txPoll | txData
  | rxPoll | rxErr | rxData
  | txnBuf | rxnBuf | rxsTerm
  | flRead | flOff | flOn
  deriving DecidableEq, Repr

/-- The working registers of rule R17, under their own names and widths. -/
structure Regs where
  cmd   : CommandWord
  lim   : Len
  cnt   : Len
  err   : Byte
  ebyte : Byte
  dbyte : Byte
  tmp   : BitVec 16
  cfg   : BitVec 18
  deriving DecidableEq, Repr

/-! ### The UART behind the register map (rules R26 to R36, R40 to R43) -/

/-- The register slots of the map by byte address: +0, +1, +2, +4 and +5 (the two bytes of BAUD), +6 (rules R26, R33). -/
inductive Slot where
  | ctrlA | ctrlB | ctrlC | baudLow | baudHigh | data
  deriving DecidableEq, Repr

/-- The stored bits of the mapped registers and the hidden state of the line side. Control A is a view of eight of these
fields (rule R27): DRDY is "a byte waits". -/
structure Uart where
  /-- Control A bit 6, transmit-complete. -/
  txc : Bool
  /-- Control A bit 5, buffer-empty. -/
  bempty : Bool
  /-- Control A bit 4, frame error. -/
  ferr : Bool
  /-- Control A bit 3, overrun. -/
  ovr : Bool
  /-- Control A bit 2, parity error. -/
  perr : Bool
  /-- Control A bit 1, double-speed. -/
  u2x : Bool
  /-- Control A bit 0, multi-processor mode. -/
  mpcm : Bool
  /-- Control B, all eight bits stored (rule R30). -/
  ctrlB : Byte
  /-- Control C, all eight bits stored (rule R32). -/
  ctrlC : Byte
  /-- The baud register's stored bits 11:0 (rule R34). -/
  baud : BitVec 12
  /-- The buffered-but-unread received byte, what a read of DATA returns; DRDY (Control A bit 7) is 1 exactly when there
  is one (rules R35, R40, R42). -/
  waiting : Option Byte
  /-- The transmit path: bytes handed to DATA whose transmission the line side has not reported finished, oldest first
  (rules R35 and R40: "a transmission in progress"). -/
  txPath : List Byte
  /-- The MODEL's own field: the last read of Control A returned BEMPTY = 1 and BEMPTY has not fallen since, so the line side
  may not lower it while TXEN is 1 (rule R60; log entry 7). Where BEMPTY is 0 the value says nothing. -/
  emptySeen : Bool
  deriving DecidableEq, Repr

/-! ### The environment: the host and the line side (rules R13, R40, R44) -/

/-- One command as the host presents it: the word, and the buffer it attaches (rule R49). `none` attaches no new buffer:
the buffer port keeps the one the host attached before (95_test_vectors.md P1: "same buffer"). -/
structure HostCommand where
  word   : CommandWord
  buffer : Option (List Byte)
  deriving DecidableEq, Repr

/-- One thing the line side may do between two accesses of the sequencer (rule R40). -/
inductive LineAction where
  /-- Deliver a received byte with its three error flags. -/
  | deliver (byte : Byte) (ferr ovr perr : Bool)
  /-- Present other error flags. -/
  | presentErrors (ferr ovr perr : Bool)
  /-- Make BEMPTY 1 or 0. -/
  | bufferEmpty (value : Bool)
  /-- Finish a transmission and make TXC 1. -/
  | transmitComplete
  /-- Make TXC 0: bit 6 is the line side's choice (rule R40), and rule R44 chooses 0 (log entry 23). -/
  | transmitNotComplete
  /-- Drop what the transmit path holds (91 entry N8: nothing says it is sent). -/
  | transmitDropped
  deriving DecidableEq, Repr

/-- A received byte of the reference environment's stream with its flags (rule R44). -/
structure RxByte where
  byte : Byte
  ferr : Bool
  ovr  : Bool
  perr : Bool
  deriving DecidableEq, Repr

/-- What the line side is going to do. -/
inductive LineSide where
  /-- Any line side: before each step the actions of the next batch, in order; nothing once the batches are used up. -/
  | script (batches : List (List LineAction))
  /-- The deterministic reference environment of rule R44, with what is left of `rx_stream` behind the waiting byte. -/
  | reference (held : List RxByte)
  deriving DecidableEq, Repr

/-! ### The observation (rules R11, R15, R76) -/

/-- One access of the sequencer (rule R11): `R8`, `W8`, `R16`, `W16` on the register bus, `BR`, `BW` on the buffer port. -/
inductive Access where
  | r8 (slot : Slot) (value : Byte)
  | w8 (slot : Slot) (value : Byte)
  | r16 (value : BitVec 16)
  | w16 (value : BitVec 16)
  | br (index : Len) (value : Byte)
  | bw (index : Len) (value : Byte)
  deriving DecidableEq, Repr

/-- The response record (rule R76). A field the command does not produce has no value (rules R76 and R77). -/
structure Response where
  status : Byte
  byte   : Option Byte
  count  : Option Len
  config : Option (BitVec 18)
  deriving DecidableEq, Repr

/-! ### One peripheral and the machine -/

/-- One Peripheral Instance with the UART it drives and its environment (10_state.md). -/
structure Peripheral where
  /-- `BASE` and the other parameters (rules R7, R24); no step changes them. -/
  params : Config.Params
  /-- The sequencer's phase (rule R19). -/
  phase : Phase
  /-- The working registers `x[name]` (rule R17). -/
  x : Regs
  /-- `cached_configuration` (rule R37). -/
  cache : Configuration
  /-- The mapped registers and the line side's hidden state (rules R26 to R43). -/
  uart : Uart
  /-- The caller's buffer at the buffer port (rule R49): the cells (index, byte) of the indices it has, in rising order. -/
  buffer : List Host.Cell
  /-- The commands the host has still to present at this command port (rule R14), the next one first. -/
  port : List HostCommand
  /-- What the line side is going to do (rules R13, R40). -/
  line : LineSide
  /-- The access trace, oldest access first (rule R15 a). -/
  trace : List Access
  /-- The responses given to the host, oldest first (rule R15 b). -/
  responses : List Response
  /-- How many free values have been used (log entry 11). -/
  freeCount : Nat
  deriving DecidableEq, Repr

/-- The machine: `NPORTS` peripherals (at least one, rule R7) that share nothing (rule R133). -/
structure State where
  /-- The peripheral the next step serves, unless `turns` selects another. -/
  self : Peripheral
  /-- The other peripherals. -/
  others : List Peripheral
  /-- Which peripheral takes each of the next steps, by its `BASE` (rules R61, R133); none left: `self` goes on. -/
  turns : List Nat
  deriving DecidableEq, Repr

/-! ### Reset (rules R45, R139, R140) -/

/-- The working registers after reset. The spec gives them no value and no command reads one before writing it (rule
R18); this model gives them 0 (log entry 3). -/
def Regs.atReset : Regs :=
  { cmd := 0, lim := 0, cnt := 0, err := 0, ebyte := 0, dbyte := 0, tmp := 0, cfg := 0 }

/-- The UART after reset: the registers at the `RESET_*` parameters, the receive path empty (rules R45 and R140), the
status bits of Control A but DRDY as `RESET_A` shows them (log entry 2). The spec gives the hidden transmit path no value after
reset: that it is empty is this model's DESIGN CHOICE (log entry 36), and so is the model's own `emptySeen` (log entry 7). -/
def Uart.atReset (p : Config.Params) : Uart :=
  { txc := p.resetA.getLsbD 6, bempty := p.resetA.getLsbD 5, ferr := p.resetA.getLsbD 4,
    ovr := p.resetA.getLsbD 3, perr := p.resetA.getLsbD 2, u2x := p.resetA.getLsbD 1, mpcm := p.resetA.getLsbD 0,
    ctrlB := p.resetB, ctrlC := p.resetC, baud := p.resetBaud.extractLsb' 0 12, waiting := none, txPath := [],
    emptySeen := false }

/-- One peripheral after reset (rule R45): `IDLE`, the startup configuration, no buffer attached, no command presented,
a line side that does nothing, an empty observation. -/
def Peripheral.atReset (p : Config.Params) : Peripheral :=
  { params := p, phase := .idle, x := Regs.atReset, cache := Configuration.startup, uart := Uart.atReset p,
    buffer := [], port := [], line := .script [], trace := [], responses := [], freeCount := 0 }

/-- The machine after reset for any parameters of its ports (rules R25 and R139: reset creates the instances). -/
def State.atReset (p : Config.Params) (more : List Config.Params) : State :=
  { self := Peripheral.atReset p, others := more.map Peripheral.atReset, turns := [] }

/-- The machine right after reset, with the ports of `Config`. -/
def State.reset : State := State.atReset Config.port0 Config.morePorts

end Sys2Proof.Machine
end

