-- ==== Sys2Proof/Machine/Operands.lean ====
section
/-! DEFINITION. The values the commands build and take apart: the encoders and decoders of 40_configuration.md section 1,
the working register `cfg` of the read-back, the two directions of the gates, and the values FLUSHRX writes. -/

namespace Sys2Proof.Machine

/-- `B_OFF`, both enable bits cleared (rule R85). -/
def bOff : Byte := 0x00

/-- The enable encoder `encB` (rule R85). -/
def encB (c : Configuration) : Byte :=
  ((BitVec.ofBool c.receiveEnabled).setWidth 8 <<< 4) ||| ((BitVec.ofBool c.transmitEnabled).setWidth 8 <<< 3)

/-- The Control A encoder `encA` (rule R86). -/
def encA (c : Configuration) : Byte :=
  0x40 ||| ((BitVec.ofBool c.useDoubleSpeed).setWidth 8 <<< 1)

/-- The frame encoder `encC` (rule R87), with the parameter `CSZ8`. -/
def encC (csz8 : BitVec 2) (c : Configuration) : Byte :=
  (c.parity.code.setWidth 8 <<< 4) ||| (c.stopBits.code.setWidth 8 <<< 3) ||| (csz8.setWidth 8 <<< 1)

/-- The baud divisor loader `encBaud` (rule R89). -/
def encBaud (c : Configuration) : BitVec 16 := c.baudDivisor.setWidth 16

/-- The configuration decoder `decCfg` (rule R90); none where the parity bits are `0b01`: not a valid Configuration. -/
def decCfg (a b k : Byte) (d : BitVec 16) : Option Configuration :=
  match Parity.ofCode (k.extractLsb' 4 2) with
  | none => none
  | some p => some
      { baudDivisor := d.extractLsb' 0 12
        useDoubleSpeed := bit a 1
        receiveEnabled := bit b 4
        transmitEnabled := bit b 3
        stopBits := StopBits.ofCode (k.extractLsb' 3 1)
        parity := p }

/-! ### `x[cfg]`: "the Configuration being assembled" by the four read-back steps (rules R17 and R96), packed as in
rule R72 -/

/-- After `RB_A`: double-speed in packed bit 12, the rest not yet read. -/
def cfgFromA (a : Byte) : BitVec 18 := 0#5 ++ BitVec.ofBool (bit a 1) ++ 0#12

/-- After `RB_B`: transmit and receive in packed bits 14 and 13. -/
def cfgFromB (cfg : BitVec 18) (b : Byte) : BitVec 18 :=
  0#3 ++ BitVec.ofBool (bit b 3) ++ BitVec.ofBool (bit b 4) ++ cfg.extractLsb' 0 13

/-- After `RB_C`: parity and stop bits in packed bits 17:16 and 15. -/
def cfgFromC (cfg : BitVec 18) (k : Byte) : BitVec 18 :=
  k.extractLsb' 4 2 ++ k.extractLsb' 3 1 ++ cfg.extractLsb' 0 15

/-- After `RB_BAUD`: the divisor in packed bits 11:0; bits 15:12 of the value read are masked off (rule R90). -/
def cfgFromBaud (cfg : BitVec 18) (d : BitVec 16) : BitVec 18 :=
  cfg.extractLsb' 12 6 ++ d.extractLsb' 0 12

/-! ### The directions of the gates (rules R100 and R101) -/

/-- The direction a gate checks. -/
inductive Direction where
  | receive
  | transmit
  deriving DecidableEq, Repr

/-- The enable of a direction in a Configuration: the gate of the cached variant. -/
def Direction.inCache (c : Configuration) : Direction → Bool
  | .receive => c.receiveEnabled
  | .transmit => c.transmitEnabled

/-- The enable bit of a direction in Control B, bit 4 or bit 3: the gate of the read-back variant. -/
def Direction.inCtrlB (b : Byte) : Direction → Bool
  | .receive => bit b 4
  | .transmit => bit b 3

/-! ### FLUSHRX (rule R117) -/

/-- `v & 0xEF`: receive-enable off, every other bit as read. -/
def flushOff (v : Byte) : Byte := v &&& 0xEF

/-- `v | 0x10`: receive-enable on, every other bit as read. -/
def flushOn (v : Byte) : Byte := v ||| 0x10

/-- The 8-bit value held in `x[tmp]`, the low byte of a BAUD value (rule R51). -/
def lowByte (v : BitVec 16) : Byte := v.extractLsb' 0 8

/-- The high byte of a BAUD value (rule R51). -/
def highByte (v : BitVec 16) : Byte := v.extractLsb' 8 8

end Sys2Proof.Machine
end

