-- ==== Sys2Proof/Machine/Ops.lean ====
section
/-! DEFINITION. The named operations of the sequencer: how a step's outcome is passed on, the caller's buffer, the mapped
registers under access (rules R28 to R35, R42, R43), the access primitives of rule R11, and the completion of a command
(rule R12), which stands in the place of taking an exception (rules R121 and R129). -/

namespace Sys2Proof.Machine

/-- The outcome of an operation that answers an `α`. -/
abbrev Reply (α : Type) := Host.Outcome α Fault Refusal

/-- Go on with the answer of an operation; a fault or a refusal ends the step. -/
def Reply.andThen {α β : Type} (o : Reply α) (k : α → Reply β) : Reply β :=
  match o with
  | .next a => k a
  | .fault f => .fault f
  | .refused r => .refused r

/-! ### The caller's buffer (rule R49): cells (index, byte), the indices 0, 1, 2, ... in this order -/

/-- The bytes of a buffer as cells, the first at index `k`. -/
def Memory.cellsFrom : Nat → List Byte → List Host.Cell
  | _, [] => []
  | k, b :: bs => (k, b) :: Memory.cellsFrom (k + 1) bs

/-- The buffer that holds `bytes` at indices 0, 1, 2, ... -/
def Memory.ofBytes (bytes : List Byte) : List Host.Cell := Memory.cellsFrom 0 bytes

/-- What an index that is not listed reads as: no value, for it lies outside the caller's buffer (rule R116). -/
def Memory.unlisted : Option Byte := none

/-- The byte at an index. -/
def Memory.read : List Host.Cell → Nat → Option Byte
  | [], _ => Memory.unlisted
  | (a, b) :: m, i => if a = i then some b else Memory.read m i

/-- The buffer with the byte at index `i` replaced; unchanged where the buffer has no index `i`. -/
def Memory.write : List Host.Cell → Nat → Byte → List Host.Cell
  | [], _, _ => []
  | (a, b) :: m, i, v => if a = i then (a, v) :: m else (a, b) :: Memory.write m i v

/-- The indices are `k`, `k + 1`, `k + 2`, ... -/
def Memory.wfFrom : Nat → List Host.Cell → Bool
  | _, [] => true
  | k, (a, _) :: m => a == k && Memory.wfFrom (k + 1) m

/-- The canonical form: "a private array of bytes per command, indexed from 0" (rule R49). -/
def Memory.wf (m : List Host.Cell) : Bool := Memory.wfFrom 0 m

/-! ### The mapped registers under access (10_state.md section 3) -/

/-- Control A as a read returns it (rule R27): DRDY, TXC, BEMPTY, FERR, OVR, PERR, U2X, MPCM in bits 7 to 0. -/
def Uart.ctrlA (u : Uart) : Byte :=
  ctrlAByte u.waiting.isSome u.txc u.bempty u.ferr u.ovr u.perr u.u2x u.mpcm

/-- A read of Control A changes no bit of it (rule R28); from now on the line side is bound by the BEMPTY the read returned
(rule R60; the model's own field, log entry 7). -/
def Uart.sawCtrlA (u : Uart) : Uart := { u with emptySeen := u.bempty }

/-- A write of `v` to Control A (rule R28): U2X and MPCM are stored, a 1 in bit 6 clears TXC, the rest has no effect. -/
def Uart.writeCtrlA (u : Uart) (v : Byte) : Uart :=
  { u with u2x := bit v 1, mpcm := bit v 0, txc := if bit v 6 then false else u.txc }

/-- RXEN, bit 4 of Control B (rule R29). -/
def Uart.rxen (u : Uart) : Bool := bit u.ctrlB 4

/-- TXEN, bit 3 of Control B (rule R29). -/
def Uart.txen (u : Uart) : Bool := bit u.ctrlB 3

/-- The receive path discarded (rule R43): no byte waits, so DRDY is 0, and FERR, OVR and PERR are 0. -/
def Uart.discardReceive (u : Uart) : Uart :=
  { u with waiting := none, ferr := false, ovr := false, perr := false }

/-- A write of `v` to Control B (rules R30 and R43): all eight bits are stored; RXEN from 1 to 0 discards the receive
path. -/
def Uart.writeCtrlB (u : Uart) (v : Byte) : Uart :=
  let stored := { u with ctrlB := v }
  if u.rxen && !bit v 4 then stored.discardReceive else stored

/-- A write of `v` to Control C stores all eight bits (rule R32). -/
def Uart.writeCtrlC (u : Uart) (v : Byte) : Uart := { u with ctrlC := v }

/-- A 16-bit write of `v` to BAUD stores bits 11:0 (rule R34). -/
def Uart.writeBaud (u : Uart) (v : BitVec 16) : Uart := { u with baud := v.extractLsb' 0 12 }

/-- An 8-bit write to the low byte of BAUD (rules R51 and R52): bits 7:0. -/
def Uart.writeBaudLow (u : Uart) (v : Byte) : Uart := { u with baud := u.baud.extractLsb' 8 4 ++ v }

/-- An 8-bit write to the high byte of BAUD (rules R51 and R52): bits 11:8 from the byte's low four bits. -/
def Uart.writeBaudHigh (u : Uart) (v : Byte) : Uart :=
  { u with baud := v.extractLsb' 0 4 ++ u.baud.extractLsb' 0 8 }

/-- DATA after a read (rule R42): the byte is consumed, and DRDY, FERR, OVR and PERR are 0. -/
def Uart.consume (u : Uart) : Uart := u.discardReceive

/-- A write of `v` to DATA (rules R35 and R105): the byte goes to the transmit path and BEMPTY is 0 until the line side
frees the buffer again. -/
def Uart.handOver (u : Uart) (v : Byte) : Uart := { u with txPath := u.txPath ++ [v], bempty := false }

/-! ### Updates of a peripheral -/

/-- `phase <- p` (rule R10). -/
def Peripheral.goto (u : Peripheral) (p : Phase) : Peripheral := { u with phase := p }

/-- One more access in the trace (rules R11 and R58). -/
def Peripheral.emit (u : Peripheral) (a : Access) : Peripheral := { u with trace := u.trace ++ [a] }

/-- The working registers replaced. -/
def Peripheral.setX (u : Peripheral) (r : Regs) : Peripheral := { u with x := r }

/-- The UART replaced. -/
def Peripheral.setUart (u : Peripheral) (v : Uart) : Peripheral := { u with uart := v }

/-- The buffer replaced. -/
def Peripheral.setBuffer (u : Peripheral) (m : List Host.Cell) : Peripheral := { u with buffer := m }

/-- `cache <- c` (rule R10). -/
def Peripheral.setCache (u : Peripheral) (c : Configuration) : Peripheral := { u with cache := c }

/-- One free value used. -/
def Peripheral.useFree (u : Peripheral) : Peripheral := { u with freeCount := u.freeCount + 1 }

/-- `x[tmp] <- v` (rule R17: "the last value read from a mapped register"). -/
def Peripheral.setTmp (u : Peripheral) (v : BitVec 16) : Peripheral := u.setX { u.x with tmp := v }

/-- `complete(...)` of rule R12: the command in progress ends, its response goes to the host and `phase <- IDLE`. This is
all that a non-`NONE` status does too: there is no trap (rules R121 and R129). -/
def Peripheral.complete (u : Peripheral) (r : Response) : Peripheral :=
  { u with phase := .idle, responses := u.responses ++ [r] }

/-- A response with a status and no other field (rule R77: CONFIGURE, GETERROR, PUTC, PUTN, PUTS, FLUSHRX). -/
def Response.ofStatus (status : Byte) : Response :=
  { status := status, byte := none, count := none, config := none }

/-- A response with a status and a count (rule R77: GETN, GETS). -/
def Response.ofCount (status : Byte) (count : Len) : Response :=
  { status := status, byte := none, count := some count, config := none }

/-- A response with a status and a received byte (rule R77: GETC). -/
def Response.ofByte (status : Byte) (byte : Byte) : Response :=
  { status := status, byte := some byte, count := none, config := none }

/-- A response with a status and a packed Configuration (rule R77: GETCONFIG). -/
def Response.ofConfig (status : Byte) (config : BitVec 18) : Response :=
  { status := status, byte := none, count := none, config := some config }

/-! ### The register bus (rules R11, R47, R48, R51 to R55) -/

/-- The offset of a register slot (rule R26). -/
def Slot.offset : Slot → Nat
  | .ctrlA => 0
  | .ctrlB => 1
  | .ctrlC => 2
  | .baudLow => 4
  | .baudHigh => 5
  | .data => 6

/-- The address of a register slot: `BASE + offset` and nothing else (rule R48). -/
def Slot.address (base : Nat) (r : Slot) : Nat := base + r.offset

/-- The register at a byte address (rules R26 and R36): +3, +7 and everything else hold none. -/
def slotAt (base address : Nat) : Option Slot :=
  if address = base then some .ctrlA
  else if address = base + 1 then some .ctrlB
  else if address = base + 2 then some .ctrlC
  else if address = base + 4 then some .baudLow
  else if address = base + 5 then some .baudHigh
  else if address = base + 6 then some .data
  else none

/-- The register a one-byte access at `address` reaches, for a peripheral whose block is as the spec asks. -/
def Peripheral.locate (u : Peripheral) (address : Nat) : Reply Slot :=
  if u.params.wf then
    match slotAt u.params.base address with
    | some r => .next r
    | none => .refused (.unmappedAddress address)
  else .refused .badRegisterBlock

/-- One byte read from a register, with its side effects (rule R56): only DATA has any (a read of Control A leaves a note for
the line side, `Uart.sawCtrlA`). -/
def Peripheral.readSlot (u : Peripheral) (r : Slot) : Reply (Byte × Peripheral) :=
  match r with
  | .ctrlA => .next (u.uart.ctrlA, (u.setUart u.uart.sawCtrlA).emit (.r8 .ctrlA u.uart.ctrlA))
  | .ctrlB => .next (u.uart.ctrlB, u.emit (.r8 .ctrlB u.uart.ctrlB))
  | .ctrlC => .next (u.uart.ctrlC, u.emit (.r8 .ctrlC u.uart.ctrlC))
  | .baudLow =>
      let v := u.uart.baud.extractLsb' 0 8
      .next (v, u.emit (.r8 .baudLow v))
  | .baudHigh =>
      let v : Byte := Config.baudUnspecified u.freeCount ++ u.uart.baud.extractLsb' 8 4
      .next (v, (u.useFree).emit (.r8 .baudHigh v))
  | .data =>
      match u.uart.waiting with
      | some d => .next (d, (u.setUart u.uart.consume).emit (.r8 .data d))
      | none => .refused .dataReadNotReady

/-- One byte written to a register, with its side effects (rule R56). -/
def Peripheral.writeSlot (u : Peripheral) (r : Slot) (v : Byte) : Reply Peripheral :=
  match r with
  | .ctrlA => .next ((u.setUart (u.uart.writeCtrlA v)).emit (.w8 .ctrlA v))
  | .ctrlB => .next ((u.setUart (u.uart.writeCtrlB v)).emit (.w8 .ctrlB v))
  | .ctrlC => .next ((u.setUart (u.uart.writeCtrlC v)).emit (.w8 .ctrlC v))
  | .baudLow => .next ((u.setUart (u.uart.writeBaudLow v)).emit (.w8 .baudLow v))
  | .baudHigh => .next ((u.setUart (u.uart.writeBaudHigh v)).emit (.w8 .baudHigh v))
  | .data =>
      if u.uart.bempty then .next ((u.setUart (u.uart.handOver v)).emit (.w8 .data v))
      else .refused .dataWriteNotEmpty

/-- `MemRead(address, 1)` (rule R11). -/
def memRead8 (address : Nat) (u : Peripheral) : Reply (Byte × Peripheral) :=
  (u.locate address).andThen fun r => u.readSlot r

/-- `MemWrite(address, 1, v)` (rule R11). -/
def memWrite8 (address : Nat) (v : Byte) (u : Peripheral) : Reply Peripheral :=
  (u.locate address).andThen fun r => u.writeSlot r v

/-- `MemRead(address, 2)` (rules R11 and R51): defined for BAUD alone (rule R54); bits 15:12 are a free value. -/
def memRead16 (address : Nat) (u : Peripheral) : Reply (BitVec 16 × Peripheral) :=
  (u.locate address).andThen fun r =>
    match r with
    | .baudLow =>
        let v : BitVec 16 := Config.baudUnspecified u.freeCount ++ u.uart.baud
        .next (v, (u.useFree).emit (.r16 v))
    | _ => .refused (.unmappedAddress address)

/-- `MemWrite(address, 2, v)` (rules R11 and R51): defined for BAUD alone, one transaction (rule R55). -/
def memWrite16 (address : Nat) (v : BitVec 16) (u : Peripheral) : Reply Peripheral :=
  (u.locate address).andThen fun r =>
    match r with
    | .baudLow => .next ((u.setUart (u.uart.writeBaud v)).emit (.w16 v))
    | _ => .refused (.unmappedAddress address)

/-- `RegRead8(off)` (rule R11). -/
def regRead8 (r : Slot) (u : Peripheral) : Reply (Byte × Peripheral) :=
  memRead8 (r.address u.params.base) u

/-- `RegWrite8(off, v)` (rule R11). -/
def regWrite8 (r : Slot) (v : Byte) (u : Peripheral) : Reply Peripheral :=
  memWrite8 (r.address u.params.base) v u

/-- `RegRead16(+4)` (rule R11) on a bus that carries it: one transaction (rule R55). -/
def regRead16 (u : Peripheral) : Reply (BitVec 16 × Peripheral) :=
  memRead16 (Slot.baudLow.address u.params.base) u

/-- `RegWrite16(+4, v)` (rule R11) on a bus that carries it: one transaction (rule R55). -/
def regWrite16 (v : BitVec 16) (u : Peripheral) : Reply Peripheral :=
  memWrite16 (Slot.baudLow.address u.params.base) v u

/-! ### The buffer port (rules R11 and R49) -/

/-- `BufRead(i)`; `why` is what the model answers where the buffer has no index `i`. -/
def bufRead (why : Refusal) (i : Len) (u : Peripheral) : Reply (Byte × Peripheral) :=
  match Memory.read u.buffer i.toNat with
  | some v => .next (v, u.emit (.br i v))
  | none => .refused why

/-- `BufWrite(i, v)`. -/
def bufWrite (i : Len) (v : Byte) (u : Peripheral) : Reply Peripheral :=
  match Memory.read u.buffer i.toNat with
  | some _ => .next ((u.setBuffer (Memory.write u.buffer i.toNat v)).emit (.bw i v))
  | none => .refused (.outsideBuffer i)

/-! ### The machine around one peripheral -/

/-- An operation of the selected peripheral as one of the machine: the other peripherals are not touched (rule R133). -/
def State.onSelf (s : State) (f : Peripheral → Reply Peripheral) : Reply State :=
  (f s.self).andThen fun u => .next { s with self := u }

end Sys2Proof.Machine
end

