-- ==== Sys2Proof/Machine/Gates.lean ====
section
/-! DEFINITION. What the command families share: the gates (rules R100 and R101), ready polling (rule R102), and the accesses
of the transmit and receive bodies (rules R103 and R104), one access a step (rule R20). -/

namespace Sys2Proof.Machine

/-- A gate failed or passed (rules R109 and R127): the command ends with `fail`, or begins with `begin`. -/
def openGate (isOpen : Bool) (fail : Response) (start : Peripheral → Peripheral) (u : Peripheral) : Peripheral :=
  if isOpen then start u else u.complete fail

/-- A gated command is accepted (rules R100 and R101): the cached variant gates on the cache, with no access; the
read-back variant goes to `GATE_B`. -/
def acceptGated (d : Direction) (fail : Response) (start : Peripheral → Peripheral) (u : Peripheral) :
    Reply Peripheral :=
  if u.params.cached then .next (openGate (d.inCache u.cache) fail start u) else .next (u.goto .gateB)

/-- The step of phase `GATE_B`: one read of Control B decides (rules R100 and R101). -/
def gateStep (d : Direction) (fail : Response) (start : Peripheral → Peripheral) (u : Peripheral) :
    Reply Peripheral :=
  (regRead8 .ctrlB u).andThen fun (b, u) =>
    .next (openGate (d.inCtrlB b) fail start (u.setTmp (b.setWidth 16)))

/-- One iteration of a poll (rule R102): one read of Control A, then the next phase, or the same phase again. -/
def pollStep (ready : Byte → Bool) (found : Phase) (u : Peripheral) : Reply Peripheral :=
  (regRead8 .ctrlA u).andThen fun (a, u) =>
    let u := u.setTmp (a.setWidth 16)
    .next (if ready a then u.goto found else u)

/-- The step of phase `TX_POLL` (rule R103): wait for buffer-empty. -/
def txPollStep (u : Peripheral) : Reply Peripheral := pollStep bufferIsEmpty .txData u

/-- The step of phase `TX_DATA` (rule R103): the byte to DATA; the body's result is `NONE`, aggregated into `x[err]`
(rule R114). -/
def txDataStep (u : Peripheral) : Reply Peripheral :=
  (regWrite8 .data u.x.dbyte u).andThen fun u =>
    .next (u.setX { u.x with err := aggregate u.x.err ErrorMask.none })

/-- The step of phase `RX_POLL` (rule R104): wait for data-ready. -/
def rxPollStep (u : Peripheral) : Reply Peripheral := pollStep dataReady .rxErr u

/-- The step of phase `RX_ERR` (rule R104): the error flags captured by a read of their own, before DATA is read. -/
def rxErrStep (u : Peripheral) : Reply Peripheral :=
  (regRead8 .ctrlA u).andThen fun (a, u) =>
    .next ((u.setX { u.x with tmp := a.setWidth 16, ebyte := decErr a }).goto .rxData)

/-- The step of phase `RX_DATA` (rule R104): the byte from DATA. -/
def rxDataStep (u : Peripheral) : Reply Peripheral :=
  (regRead8 .data u).andThen fun (d, u) =>
    .next (u.setX { u.x with tmp := d.setWidth 16, dbyte := d })

/-- The step of phase `TXN_BUF` (rules R110 and R113): the next byte from the buffer. -/
def txnBufStep (why : Refusal) (u : Peripheral) : Reply Peripheral :=
  (bufRead why u.x.cnt u).andThen fun (v, u) => .next (u.setX { u.x with dbyte := v })

/-- The step of phase `RXN_BUF` (rules R111 and R112): the received byte to the buffer, counted, its error aggregated. -/
def rxnBufStep (u : Peripheral) : Reply Peripheral :=
  (bufWrite u.x.cnt u.x.dbyte u).andThen fun u =>
    .next (u.setX { u.x with cnt := u.x.cnt + 1, err := aggregate u.x.err u.x.ebyte })

end Sys2Proof.Machine
end

