-- ==== Sys2Proof/Machine/BufferIo.lean ====
section
/-! DEFINITION. PUTN, GETN, GETS and PUTS (42_buffer_io.md section 2), one access a step; the loop tests take no step of
their own (rule R20). -/

namespace Sys2Proof.Machine

/-! ### PUTN (rule R110) -/

/-- The loop test of PUTN: the next byte, or the end. -/
def putnLoop (u : Peripheral) : Peripheral :=
  if u.x.cnt < u.x.lim then u.goto .txnBuf else u.complete (Response.ofStatus u.x.err)

/-- PUTN after its gate. -/
def putnStart (length : Len) (u : Peripheral) : Peripheral :=
  putnLoop (u.setX { u.x with lim := length, cnt := 0, err := ErrorMask.none })

/-- PUTN (rule R110): no early stop and no count (90_conflicts.md C3). -/
def putnStep (length : Len) (u : Peripheral) : Reply Peripheral :=
  let fail := Response.ofStatus ErrorMask.disabled
  match u.phase with
  | .idle => acceptGated .transmit fail (putnStart length) u
  | .gateB => gateStep .transmit fail (putnStart length) u
  | .txnBuf => (txnBufStep (.outsideBuffer u.x.cnt) u).andThen fun u => .next (u.goto .txPoll)
  | .txPoll => txPollStep u
  | .txData => (txDataStep u).andThen fun u => .next (putnLoop (u.setX { u.x with cnt := u.x.cnt + 1 }))
  | _ => .fault .phaseOfOtherCommand

/-! ### GETN (rule R111) -/

/-- The loop test of GETN: the next byte, or the end. -/
def getnLoop (u : Peripheral) : Peripheral :=
  if u.x.cnt < u.x.lim then u.goto .rxPoll else u.complete (Response.ofCount u.x.err u.x.cnt)

/-- GETN after its gate. -/
def getnStart (length : Len) (u : Peripheral) : Peripheral :=
  getnLoop (u.setX { u.x with lim := length, cnt := 0, err := ErrorMask.none })

/-- GETN (rule R111): the byte with an error is stored and counted, and is the last one (rule R128). -/
def getnStep (length : Len) (u : Peripheral) : Reply Peripheral :=
  let fail := Response.ofCount ErrorMask.disabled 0
  match u.phase with
  | .idle => acceptGated .receive fail (getnStart length) u
  | .gateB => gateStep .receive fail (getnStart length) u
  | .rxPoll => rxPollStep u
  | .rxErr => rxErrStep u
  | .rxData => (rxDataStep u).andThen fun u => .next (u.goto .rxnBuf)
  | .rxnBuf => (rxnBufStep u).andThen fun u =>
      .next (if u.x.ebyte ≠ ErrorMask.none then u.complete (Response.ofCount u.x.err u.x.cnt) else getnLoop u)
  | _ => .fault .phaseOfOtherCommand

/-! ### GETS (rule R112) -/

/-- The loop test of GETS: the next byte, or the terminator. -/
def getsLoop (u : Peripheral) : Peripheral :=
  if u.x.cnt < u.x.lim then u.goto .rxPoll else u.goto .rxsTerm

/-- GETS after its gate: at most `capacity - 1` bytes. -/
def getsStart (capacity : Len) (u : Peripheral) : Peripheral :=
  getsLoop (u.setX { u.x with lim := capacity - 1, cnt := 0, err := ErrorMask.none })

/-- GETS (rule R112): stops at the first error or at the delimiter, and always writes the terminator. `capacity = 0` is
refused (corner case d, log entry 15). -/
def getsStep (capacity : Len) (delimiter : Byte) (u : Peripheral) : Reply Peripheral :=
  let fail := Response.ofCount ErrorMask.disabled 0
  if capacity = 0 then .refused .capacityZero
  else
    match u.phase with
    | .idle => acceptGated .receive fail (getsStart capacity) u
    | .gateB => gateStep .receive fail (getsStart capacity) u
    | .rxPoll => rxPollStep u
    | .rxErr => rxErrStep u
    | .rxData => (rxDataStep u).andThen fun u => .next (u.goto .rxnBuf)
    | .rxnBuf => (rxnBufStep u).andThen fun u =>
        .next (if u.x.ebyte ≠ ErrorMask.none ∨ u.x.dbyte = delimiter then u.goto .rxsTerm else getsLoop u)
    | .rxsTerm => (bufWrite u.x.cnt 0x00 u).andThen fun u =>
        .next (u.complete (Response.ofCount u.x.err u.x.cnt))
    | _ => .fault .phaseOfOtherCommand

/-! ### PUTS (rule R113) -/

/-- PUTS after its gate. -/
def putsStart (u : Peripheral) : Peripheral :=
  (u.setX { u.x with cnt := 0, err := ErrorMask.none }).goto .txnBuf

/-- PUTS (rule R113): bytes up to, not including, the first 0x00. A string that goes on past the last index a buffer can
have is a buffer with no 0x00 (log entry 14). -/
def putsStep (u : Peripheral) : Reply Peripheral :=
  let fail := Response.ofStatus ErrorMask.disabled
  match u.phase with
  | .idle => acceptGated .transmit fail putsStart u
  | .gateB => gateStep .transmit fail putsStart u
  | .txnBuf => (txnBufStep .unterminatedString u).andThen fun u =>
      .next (if u.x.dbyte = 0x00 then u.complete (Response.ofStatus u.x.err) else u.goto .txPoll)
  | .txPoll => txPollStep u
  | .txData => (txDataStep u).andThen fun u =>
      if u.x.cnt = 0xFFFF then .refused .unterminatedString
      else .next ((u.setX { u.x with cnt := u.x.cnt + 1 }).goto .txnBuf)
  | _ => .fault .phaseOfOtherCommand

/-- One step of PUTN at the selected peripheral. -/
def execPutn (length : Len) (s : State) : Reply State := s.onSelf (putnStep length)

/-- One step of GETN at the selected peripheral. -/
def execGetn (length : Len) (s : State) : Reply State := s.onSelf (getnStep length)

/-- One step of GETS at the selected peripheral. -/
def execGets (capacity : Len) (delimiter : Byte) (s : State) : Reply State := s.onSelf (getsStep capacity delimiter)

/-- One step of PUTS at the selected peripheral. -/
def execPuts (s : State) : Reply State := s.onSelf putsStep

end Sys2Proof.Machine
end

