-- ==== Sys2Proof/Machine/ByteIo.lean ====
section
/-! DEFINITION. PUTC and GETC (41_byte_io.md section 4), one access a step. -/

namespace Sys2Proof.Machine

/-- PUTC after its gate (rule R105): the byte to `x[dbyte]`, `x[err]` to `NONE` (rule R23). -/
def putcStart (byte : Byte) (u : Peripheral) : Peripheral :=
  (u.setX { u.x with dbyte := byte, err := ErrorMask.none }).goto .txPoll

/-- PUTC (rule R105). -/
def putcStep (byte : Byte) (u : Peripheral) : Reply Peripheral :=
  let fail := Response.ofStatus ErrorMask.disabled
  match u.phase with
  | .idle => acceptGated .transmit fail (putcStart byte) u
  | .gateB => gateStep .transmit fail (putcStart byte) u
  | .txPoll => txPollStep u
  | .txData => (txDataStep u).andThen fun u => .next (u.complete (Response.ofStatus u.x.err))
  | _ => .fault .phaseOfOtherCommand

/-- GETC after its gate (rule R106): `x[err]` to `NONE` (rule R23). -/
def getcStart (u : Peripheral) : Peripheral := (u.setX { u.x with err := ErrorMask.none }).goto .rxPoll

/-- GETC (rule R106): the byte is returned with its error; on `DISABLED` the response has no byte. -/
def getcStep (u : Peripheral) : Reply Peripheral :=
  let fail := Response.ofStatus ErrorMask.disabled
  match u.phase with
  | .idle => acceptGated .receive fail getcStart u
  | .gateB => gateStep .receive fail getcStart u
  | .rxPoll => rxPollStep u
  | .rxErr => rxErrStep u
  | .rxData => (rxDataStep u).andThen fun u =>
      let u := u.setX { u.x with err := aggregate u.x.err u.x.ebyte }
      .next (u.complete (Response.ofByte u.x.err u.x.dbyte))
  | _ => .fault .phaseOfOtherCommand

/-- One step of PUTC at the selected peripheral. -/
def execPutc (byte : Byte) (s : State) : Reply State := s.onSelf (putcStep byte)

/-- One step of GETC at the selected peripheral. -/
def execGetc (s : State) : Reply State := s.onSelf getcStep

end Sys2Proof.Machine
end

