-- ==== Sys2Proof/Machine/Configuration.lean ====
section
/-! DEFINITION. CONFIGURE, GETCONFIG and GETERROR (40_configuration.md section 2), one access a step. -/

namespace Sys2Proof.Machine

/-- CONFIGURE (rules R92 to R94): five writes in the fixed order, the cache after the fifth, then `NONE`. On a bus that cannot
carry 16 bits the fourth write is two byte accesses, the high byte first (rules R55 and R154, D11), one a step. -/
def configureStep (c : Configuration) (u : Peripheral) : Reply Peripheral :=
  match u.phase with
  | .idle => .next (u.goto .cfgBOff)
  | .cfgBOff => (regWrite8 .ctrlB bOff u).andThen fun u => .next (u.goto .cfgA)
  | .cfgA => (regWrite8 .ctrlA (encA c) u).andThen fun u => .next (u.goto .cfgC)
  | .cfgC => (regWrite8 .ctrlC (encC u.params.csz8 c) u).andThen fun u => .next (u.goto .cfgBaud)
  | .cfgBaud =>
      match u.params.bus with
      | .whole => (regWrite16 (encBaud c) u).andThen fun u => .next (u.goto .cfgBOn)
      | .split => (regWrite8 .baudHigh (highByte (encBaud c)) u).andThen fun u => .next (u.goto .cfgBaudLow)
  | .cfgBaudLow => (regWrite8 .baudLow (lowByte (encBaud c)) u).andThen fun u => .next (u.goto .cfgBOn)
  | .cfgBOn => (regWrite8 .ctrlB (encB c) u).andThen fun u =>
      .next ((if u.params.cached then u.setCache c else u).complete (Response.ofStatus ErrorMask.none))
  | _ => .fault .phaseOfOtherCommand

/-- The end of GETCONFIG's read-back, with BAUD read as `d` (rules R90 and R96): the Configuration, or the fault of a parity
pattern 1 (log entry 17). -/
def readBackEnd (d : BitVec 16) (u : Peripheral) : Reply Peripheral :=
  let u := u.setX { u.x with tmp := d, cfg := cfgFromBaud u.x.cfg d }
  match Configuration.unpack u.x.cfg with
  | some c => .next (u.complete (Response.ofConfig ErrorMask.none c.pack))
  | none => .fault .parityNotValid

/-- GETCONFIG (rule R96): the cache with no access, or the four read-back reads, decoded. On a bus that cannot carry 16 bits
the fourth read is two byte accesses, the low byte first (rule R55, D11), one a step. -/
def getconfigStep (u : Peripheral) : Reply Peripheral :=
  match u.phase with
  | .idle =>
      if u.params.cached then .next (u.complete (Response.ofConfig ErrorMask.none u.cache.pack))
      else .next (u.goto .rbA)
  | .rbA => (regRead8 .ctrlA u).andThen fun (a, u) =>
      .next ((u.setX { u.x with tmp := a.setWidth 16, cfg := cfgFromA a }).goto .rbB)
  | .rbB => (regRead8 .ctrlB u).andThen fun (b, u) =>
      .next ((u.setX { u.x with tmp := b.setWidth 16, cfg := cfgFromB u.x.cfg b }).goto .rbC)
  | .rbC => (regRead8 .ctrlC u).andThen fun (k, u) =>
      .next ((u.setX { u.x with tmp := k.setWidth 16, cfg := cfgFromC u.x.cfg k }).goto .rbBaud)
  | .rbBaud =>
      match u.params.bus with
      | .whole => (regRead16 u).andThen fun (d, u) => readBackEnd d u
      | .split => (regRead8 .baudLow u).andThen fun (low, u) =>
          .next ((u.setTmp (low.setWidth 16)).goto .rbBaudHigh)
  | .rbBaudHigh => (regRead8 .baudHigh u).andThen fun (high, u) => readBackEnd (high ++ lowByte u.x.tmp) u
  | _ => .fault .phaseOfOtherCommand

/-- GETERROR (rule R97): one read of Control A, not gated; its error flags are the status. -/
def geterrorStep (u : Peripheral) : Reply Peripheral :=
  match u.phase with
  | .idle => .next (u.goto .geA)
  | .geA => (regRead8 .ctrlA u).andThen fun (a, u) =>
      .next ((u.setTmp (a.setWidth 16)).complete (Response.ofStatus (decErr a)))
  | _ => .fault .phaseOfOtherCommand

/-- One step of CONFIGURE at the selected peripheral. -/
def execConfigure (c : Configuration) (s : State) : Reply State := s.onSelf (configureStep c)

/-- One step of GETCONFIG at the selected peripheral. -/
def execGetconfig (s : State) : Reply State := s.onSelf getconfigStep

/-- One step of GETERROR at the selected peripheral. -/
def execGeterror (s : State) : Reply State := s.onSelf geterrorStep

end Sys2Proof.Machine
end

