-- ==== Sys2Proof/Machine/Flush.lean ====
section
/-! DEFINITION. FLUSHRX (43_flush.md), one access a step. -/

namespace Sys2Proof.Machine

/-- FLUSHRX (rule R117): a no-op when receive is disabled; else one read of Control B and two writes built from it. In the
read-back variant the read is the gate too, so there is no `GATE_B` (log entry 20). -/
def flushrxStep (u : Peripheral) : Reply Peripheral :=
  let done := Response.ofStatus ErrorMask.none
  match u.phase with
  | .idle =>
      if u.params.cached && !u.cache.receiveEnabled then .next (u.complete done) else .next (u.goto .flRead)
  | .flRead => (regRead8 .ctrlB u).andThen fun (v, u) =>
      let u := u.setTmp (v.setWidth 16)
      .next (if !u.params.cached && !bit v 4 then u.complete done else u.goto .flOff)
  | .flOff => (regWrite8 .ctrlB (flushOff (lowByte u.x.tmp)) u).andThen fun u => .next (u.goto .flOn)
  | .flOn => (regWrite8 .ctrlB (flushOn (lowByte u.x.tmp)) u).andThen fun u => .next (u.complete done)
  | _ => .fault .phaseOfOtherCommand

/-- One step of FLUSHRX at the selected peripheral. -/
def execFlushrx (s : State) : Reply State := s.onSelf flushrxStep

end Sys2Proof.Machine
end

