-- ==== Sys2Proof/Machine/Dispatch.lean ====
section
/-! DEFINITION. One arm for every constructor of `Instr`, each one call of the command's meaning. -/

namespace Sys2Proof.Machine

def exec (i : Instr) (s : State) : Host.Outcome State Fault Refusal :=
  match i with
  | .configure c => Sys2Proof.Machine.execConfigure c s
  | .getconfig => Sys2Proof.Machine.execGetconfig s
  | .geterror => Sys2Proof.Machine.execGeterror s
  | .putc byte => Sys2Proof.Machine.execPutc byte s
  | .getc => Sys2Proof.Machine.execGetc s
  | .putn length => Sys2Proof.Machine.execPutn length s
  | .getn length => Sys2Proof.Machine.execGetn length s
  | .gets capacity delimiter => Sys2Proof.Machine.execGets capacity delimiter s
  | .puts => Sys2Proof.Machine.execPuts s
  | .flushrx => Sys2Proof.Machine.execFlushrx s

end Sys2Proof.Machine
end

