-- ==== Sys2Proof/Machine/LineSide.lean ====
section
/-! DEFINITION. The line side (rules R13, R40 to R44): what it may do between two accesses of the sequencer, under the
constraints the spec puts on it, and the reference environment as one line side among many. -/

namespace Sys2Proof.Machine

/-- One action of the line side. A byte is delivered only while RXEN is 1 (rule R41). BEMPTY may be made 1 or 0 at any time
(rule R40), but with TXEN 1 it is not made 0 once it was read as 1 (rules R41 and R60; log entry 7). -/
def Uart.lineAct (u : Uart) : LineAction → Uart
  | .deliver byte ferr ovr perr =>
      if u.rxen then { u with waiting := some byte, ferr := ferr, ovr := ovr, perr := perr } else u
  | .presentErrors ferr ovr perr => { u with ferr := ferr, ovr := ovr, perr := perr }
  | .bufferEmpty true => { u with bempty := true, emptySeen := u.bempty && u.emptySeen }
  | .bufferEmpty false => if u.txen && u.emptySeen then u else { u with bempty := false }
  | .transmitComplete => { u with txc := true, txPath := u.txPath.tail }
  | .transmitNotComplete => { u with txc := false }
  | .transmitDropped => { u with txPath := [] }

/-- Actions of the line side, in order. -/
def Uart.lineActs : Uart → List LineAction → Uart
  | u, [] => u
  | u, a :: as => Uart.lineActs (u.lineAct a) as

/-- What the reference environment does before an access (rule R44), and what it then holds: BEMPTY is TXEN and TXC is 0; with
RXEN 1 the head of `rx_stream` is the waiting byte, with its flags; where no byte waits, the error flags are 0. -/
def referenceActions (u : Uart) (held : List RxByte) : List LineAction × List RxByte :=
  match u.rxen, u.waiting, held with
  | true, none, r :: rest =>
      ([.bufferEmpty u.txen, .transmitNotComplete, .deliver r.byte r.ferr r.ovr r.perr], rest)
  | true, some _, _ => ([.bufferEmpty u.txen, .transmitNotComplete], held)
  | _, _, _ => ([.bufferEmpty u.txen, .transmitNotComplete, .presentErrors false false false], held)

/-- The line side's next turn: its actions, and what it is going to do after them. -/
def LineSide.turn (l : LineSide) (u : Uart) : List LineAction × LineSide :=
  match l with
  | .script [] => ([], .script [])
  | .script (batch :: rest) => (batch, .script rest)
  | .reference held =>
      ((referenceActions u held).1, .reference (referenceActions u held).2)

/-- The line side of a peripheral takes its turn. -/
def Peripheral.lineTurn (u : Peripheral) : Peripheral :=
  { u with uart := u.uart.lineActs (u.line.turn u.uart).1, line := (u.line.turn u.uart).2 }

/-- `rx_stream` of rule R44 as a whole: the waiting byte with its flags, if there is one, before the stream that the line side
still holds (log entry 10). -/
def Uart.rxStream (u : Uart) (held : List RxByte) : List RxByte :=
  match u.waiting with
  | some d => ⟨d, u.ferr, u.ovr, u.perr⟩ :: held
  | none => held

/-- The bytes handed to DATA, oldest first: the `tx_log` of rule R44, read off the access trace. -/
def txLog : List Access → List Byte
  | [] => []
  | .w8 .data v :: t => v :: txLog t
  | _ :: t => txLog t

end Sys2Proof.Machine
end

