-- ==== Sys2Proof/Machine/Fetch.lean ====
section
/-! DEFINITION. What a step does before its command acts: which peripheral takes the step (rules R61 and R133), the line
side's turn (rule R20), and the command port (rules R21, R46, R67). There is no instruction memory: commands come as values
(rule R64). -/

namespace Sys2Proof.Machine

/-- The first peripheral of a list whose `BASE` is `base`, with the list without it. -/
def takeOut (base : Nat) : List Peripheral → Option (Peripheral × List Peripheral)
  | [] => none
  | p :: ps =>
      if p.params.base = base then some (p, ps)
      else match takeOut base ps with
        | some (q, qs) => some (q, p :: qs)
        | none => none

/-- The peripheral at `base` becomes the one the step serves; where there is none, nothing changes. -/
def State.select (s : State) (base : Nat) : State :=
  if s.self.params.base = base then s
  else match takeOut base s.others with
    | some (p, rest) => { s with self := p, others := s.self :: rest }
    | none => s

/-- The next entry of `turns` selects the peripheral; with no entry left, the same one goes on. -/
def State.nextTurn (s : State) : State :=
  match s.turns with
  | [] => s
  | base :: rest => { s.select base with turns := rest }

/-- The line side of the selected peripheral acts. -/
def State.lineTurn (s : State) : State := { s with self := s.self.lineTurn }

/-- All that happens before the sequencer's own step: the selection, then the line side's turn. -/
def State.prepare (s : State) : State := s.nextTurn.lineTurn

/-- A command is accepted (rules R17 and R21): its word is latched in `x[cmd]`, its buffer, if the host attaches one, is at
the buffer port, and the port goes on to the next command. -/
def Peripheral.accept (u : Peripheral) (c : HostCommand) (rest : List HostCommand) : Peripheral :=
  { u with x := { u.x with cmd := c.word }, port := rest,
           buffer := match c.buffer with
             | some bytes => Memory.ofBytes bytes
             | none => u.buffer }

/-- What a prepared state is about to run. -/
inductive Fetched where
  /-- `IDLE` and no command presented: the sequencer waits (rule R140). -/
  | waiting
  /-- A command acts on this state: one just accepted, or the one in progress. -/
  | command (i : Instr) (s : State)
  /-- The word at the port is not a command (rule R80). -/
  | rejected (why : Reject)
  /-- A command is in progress and the latched word is none. -/
  | lost

/-- The command port in `IDLE`, else the latched word (rule R17: "every step of the command" reads `cmd`). -/
def State.fetch (s : State) : Fetched :=
  if s.self.phase = .idle then
    match s.self.port with
    | [] => .waiting
    | c :: rest =>
        match decode c.word with
        | .ok i => .command i { s with self := s.self.accept c rest }
        | .error why => .rejected why
  else
    match decode s.self.x.cmd with
    | .ok i => .command i s
    | .error _ => .lost

/-- `s` with a command word presented at the port of the selected peripheral, which is made ready for it: `IDLE`, no other
peripheral's turn first, and no new buffer attached. -/
def State.present (s : State) (w : CommandWord) : State :=
  { s with turns := []
           self := { s.self with phase := .idle, port := { word := w, buffer := none } :: s.self.port } }

end Sys2Proof.Machine
end

