-- ==== Sys2Proof/Machine/Step.lean ====
section
/-! DEFINITION. One step of the machine (rule R20), and where the next command is presented. -/

namespace Sys2Proof.Machine

/-- One step: the turn is given and the line side acts (`State.prepare`); then the command that is accepted or in progress
acts, or the sequencer waits in `IDLE`. -/
def step (s : State) : Host.Outcome State Fault Refusal :=
  match s.prepare.fetch with
  | .waiting => .next s.prepare
  | .command i t => exec i t
  | .rejected why => .refused (.reservedWord why)
  | .lost => .fault .latchedWordNotCommand

/-- The machine with the opcode-table word `w` of `nbits` bits presented at the command port the next step serves. -/
def State.withFetchWord (s : State) (nbits w : Nat) : State :=
  s.present (BitVec.ofNat 32 (w % 2 ^ nbits))

end Sys2Proof.Machine
end

