-- ==== Sys2Proof/Safety.lean ====
section
/-! DEFINITION. The words the claims use: repeated steps, which phases belong to which command (rule R19), the invariant of
the machine, the agreement of the cache with the hardware, and the results the multi-byte commands owe. -/

namespace Sys2Proof.Machine

/-! ### Repeated steps -/

/-- `n` steps of one command, with nothing between them; the first stop ends them. -/
def execTimes : Nat → Instr → State → Reply State
  | 0, _, s => .next s
  | n + 1, i, s => Reply.andThen (exec i s) fun t => execTimes n i t

/-- `n` steps of the machine. -/
def run : Nat → State → Reply State
  | 0, s => .next s
  | n + 1, s => Reply.andThen (step s) fun t => run n t

/-! ### Phases and commands (rule R19) -/

/-- `GATE_B` belongs to every gated command of the read-back variant. -/
def gatePhases (p : Config.Params) : List Phase := if p.cached then [] else [.gateB]

/-- The second half of the baud access, on a bus that splits it (rule R55). -/
def splitPhase (p : Config.Params) (half : Phase) : List Phase :=
  match p.bus with
  | .whole => []
  | .split => [half]

/-- The accesses a phase names (rule R19): which register is read or written, or which way the buffer is accessed. -/
def Phase.names (p : Phase) (bus : Config.BaudBus) : Access → Bool
  | .r8 .ctrlA _ => p ∈ [.rbA, .geA, .txPoll, .rxPoll, .rxErr]
  | .r8 .ctrlB _ => p ∈ [.rbB, .gateB, .flRead]
  | .r8 .ctrlC _ => p == .rbC
  | .r8 .baudLow _ => p == .rbBaud && bus == .split
  | .r8 .baudHigh _ => p == .rbBaudHigh
  | .r8 .data _ => p == .rxData
  | .w8 .ctrlA _ => p == .cfgA
  | .w8 .ctrlB _ => p ∈ [.cfgBOff, .cfgBOn, .flOff, .flOn]
  | .w8 .ctrlC _ => p == .cfgC
  | .w8 .baudLow _ => p == .cfgBaudLow
  | .w8 .baudHigh _ => p == .cfgBaud && bus == .split
  | .w8 .data _ => p == .txData
  | .r16 _ => p == .rbBaud && bus == .whole
  | .w16 _ => p == .cfgBaud && bus == .whole
  | .br _ _ => p == .txnBuf
  | .bw _ _ => p ∈ [.rxnBuf, .rxsTerm]

/-- An access that writes Control A, Control C or BAUD, whole or in halves. -/
def Access.writesConfiguration : Access → Bool
  | .w8 .ctrlA _ => true
  | .w8 .ctrlC _ => true
  | .w8 .baudLow _ => true
  | .w8 .baudHigh _ => true
  | .w16 _ => true
  | .w8 .ctrlB _ => false
  | .w8 .data _ => false
  | .r8 _ _ => false
  | .r16 _ => false
  | .br _ _ => false
  | .bw _ _ => false

/-- An access that writes Control B. -/
def Access.writesControlB : Access → Bool
  | .w8 .ctrlB _ => true
  | .w8 .ctrlA _ => false
  | .w8 .ctrlC _ => false
  | .w8 .baudLow _ => false
  | .w8 .baudHigh _ => false
  | .w8 .data _ => false
  | .w16 _ => false
  | .r8 _ _ => false
  | .r16 _ => false
  | .br _ _ => false
  | .bw _ _ => false

end Sys2Proof.Machine

namespace Sys2Proof

open Machine

/-- The phases of a command in progress (rule R19's table; FLUSHRX has no `GATE_B`, log entry 20; the second half of the baud
access is a phase on a split bus only, log entry 19). -/
def Instr.phases (p : Config.Params) : Instr → List Phase
  | .configure _ => [.cfgBOff, .cfgA, .cfgC, .cfgBaud] ++ splitPhase p .cfgBaudLow ++ [.cfgBOn]
  | .getconfig => if p.cached then [] else [.rbA, .rbB, .rbC, .rbBaud] ++ splitPhase p .rbBaudHigh
  | .geterror => [.geA]
  | .putc _ => gatePhases p ++ [.txPoll, .txData]
  | .getc => gatePhases p ++ [.rxPoll, .rxErr, .rxData]
  | .putn _ => gatePhases p ++ [.txnBuf, .txPoll, .txData]
  | .getn _ => gatePhases p ++ [.rxPoll, .rxErr, .rxData, .rxnBuf]
  | .gets _ _ => gatePhases p ++ [.rxPoll, .rxErr, .rxData, .rxnBuf, .rxsTerm]
  | .puts => gatePhases p ++ [.txnBuf, .txPoll, .txData]
  | .flushrx => [.flRead, .flOff, .flOn]

/-- The transmitting commands (rules R105, R110, R113). -/
def Instr.transmits : Instr → Bool
  | .configure _ => false
  | .getconfig => false
  | .geterror => false
  | .putc _ => true
  | .getc => false
  | .putn _ => true
  | .getn _ => false
  | .gets _ _ => false
  | .puts => true
  | .flushrx => false

/-- The receiving commands (rules R106, R111, R112). -/
def Instr.receives : Instr → Bool
  | .configure _ => false
  | .getconfig => false
  | .geterror => false
  | .putc _ => false
  | .getc => true
  | .putn _ => false
  | .getn _ => true
  | .gets _ _ => true
  | .puts => false
  | .flushrx => false

/-- The response of a gated command whose gate fails (rules R77, R105, R106, R109). -/
def Instr.disabledResponse : Instr → Response
  | .configure _ => Response.ofStatus ErrorMask.disabled
  | .getconfig => Response.ofStatus ErrorMask.disabled
  | .geterror => Response.ofStatus ErrorMask.disabled
  | .putc _ => Response.ofStatus ErrorMask.disabled
  | .getc => Response.ofStatus ErrorMask.disabled
  | .putn _ => Response.ofStatus ErrorMask.disabled
  | .getn _ => Response.ofCount ErrorMask.disabled 0
  | .gets _ _ => Response.ofCount ErrorMask.disabled 0
  | .puts => Response.ofStatus ErrorMask.disabled
  | .flushrx => Response.ofStatus ErrorMask.disabled

/-- The peripheral of a gated command whose gate passed, before its first access: the pseudocode of rules R105, R106 and R110
to R113 up to the first access primitive. -/
def Instr.started (i : Instr) (u : Peripheral) : Peripheral :=
  match i with
  | .putc byte => { u with phase := .txPoll, x := { u.x with dbyte := byte, err := 0 } }
  | .getc => { u with phase := .rxPoll, x := { u.x with err := 0 } }
  | .putn length =>
      if length = 0 then
        { u with phase := .idle, x := { u.x with lim := length, cnt := 0, err := 0 },
                 responses := u.responses ++ [⟨0, none, none, none⟩] }
      else { u with phase := .txnBuf, x := { u.x with lim := length, cnt := 0, err := 0 } }
  | .getn length =>
      if length = 0 then
        { u with phase := .idle, x := { u.x with lim := length, cnt := 0, err := 0 },
                 responses := u.responses ++ [⟨0, none, some 0, none⟩] }
      else { u with phase := .rxPoll, x := { u.x with lim := length, cnt := 0, err := 0 } }
  | .gets capacity _ =>
      { u with phase := if capacity = 1 then .rxsTerm else .rxPoll,
               x := { u.x with lim := capacity - 1, cnt := 0, err := 0 } }
  | .puts => { u with phase := .txnBuf, x := { u.x with cnt := 0, err := 0 } }
  | .configure _ => u
  | .getconfig => u
  | .geterror => u
  | .flushrx => u

/-- Whether the gate of a gated command is open: in the cached variant the cache shows the direction enabled, in the
read-back variant Control B does (rules R100 and R101). -/
def Instr.gateOpen (i : Instr) (u : Peripheral) : Bool :=
  match i.transmits, u.params.cached with
  | true, true => u.cache.transmitEnabled
  | false, true => u.cache.receiveEnabled
  | true, false => u.uart.txen
  | false, false => u.uart.rxen

end Sys2Proof

namespace Sys2Proof.Machine

/-! ### The invariant -/

/-- The statuses the block returns (rules R78 and R79): `DISABLED` alone, or hardware flags and nothing else. -/
def legalStatus (v : Byte) : Bool := v == ErrorMask.disabled || v &&& ErrorMask.hardware == v

/-- What the working registers hold inside the loop of a command in a phase (rules R110 to R113, R115): the limit is the
operand's, fewer bytes than the limit have been moved, and no byte has had an error yet. -/
def Regs.loopOk (r : Regs) (p : Phase) : Instr → Prop
  | .putc _ => p ∈ [.txPoll, .txData] → r.err = ErrorMask.none
  | .getc => p ∈ [.rxPoll, .rxErr, .rxData] → r.err = ErrorMask.none
  | .putn length => p ∈ [.txnBuf, .txPoll, .txData] → r.lim = length ∧ r.cnt < r.lim ∧ r.err = ErrorMask.none
  | .getn length =>
      p ∈ [.rxPoll, .rxErr, .rxData, .rxnBuf] → r.lim = length ∧ r.cnt < r.lim ∧ r.err = ErrorMask.none
  | .gets capacity _ =>
      (p ∈ [.rxPoll, .rxErr, .rxData, .rxnBuf] → r.lim = capacity - 1 ∧ r.cnt < r.lim ∧ r.err = ErrorMask.none) ∧
      (p = .rxsTerm → r.lim = capacity - 1 ∧ r.cnt ≤ r.lim ∧ r.err &&& ErrorMask.hardware = r.err)
  | .puts => p ∈ [.txnBuf, .txPoll, .txData] → r.err = ErrorMask.none
  | .configure _ => True
  | .getconfig => True
  | .geterror => True
  | .flushrx => True

/-- The phases of CONFIGURE between its first and its fifth write: both enables are 0 (rule R95). -/
def configureOff : List Phase := [.cfgA, .cfgC, .cfgBaud, .cfgBaudLow, .cfgBOn]

/-- The invariant of one peripheral: what holds in every state a run from reset reaches. -/
structure Peripheral.Inv (u : Peripheral) : Prop where
  /-- The register block is as the spec asks (rules R53 and R157). -/
  block : u.params.wf = true
  /-- The caller's buffer is in canonical form (rule R49). -/
  buffer : Memory.wf u.buffer = true
  /-- A phase other than `IDLE` belongs to the command in progress (rule R19), whose loop is as it should be. -/
  phase : u.phase = .idle ∨ ∃ i, decode u.x.cmd = .ok i ∧ i.wf = true ∧ u.phase ∈ i.phases u.params ∧
    u.x.loopOk u.phase i
  /-- The captured error flags are hardware flags (rule R104). -/
  ebyte : u.phase ∈ [.rxData, .rxnBuf] → u.x.ebyte &&& ErrorMask.hardware = u.x.ebyte
  /-- DRDY is 1 only while RXEN is 1 (rules R41 and R43). -/
  drdy : u.uart.waiting.isSome = true → u.uart.rxen = true
  /-- DATA is read only after DRDY was read as 1 (rule R148). -/
  received : u.phase ∈ [.rxErr, .rxData] → u.uart.waiting.isSome = true
  /-- DATA is written only after BEMPTY was read as 1 (rule R148), and it is still 1 (rule R60). -/
  emptied : u.phase = .txData → u.uart.bempty = true ∧ u.uart.emptySeen = true
  /-- A transmit loop runs with TXEN 1 (rules R100 and R151). -/
  txEnabled : u.phase ∈ [.txnBuf, .txPoll, .txData] → u.uart.txen = true
  /-- Cached variant: a direction the cache shows enabled is enabled in the hardware (rule R95). -/
  cacheTx : u.params.cached = true → u.phase ∉ configureOff → u.cache.transmitEnabled = true → u.uart.txen = true
  cacheRx : u.params.cached = true → u.phase ∉ .flOn :: configureOff → u.cache.receiveEnabled = true →
    u.uart.rxen = true
  /-- Control A, Control C and BAUD are written with both enables 0 (rules R95 and R145). -/
  off : u.phase ∈ configureOff → u.uart.ctrlB = bOff
  /-- FLUSHRX works only on an enabled receiver (rule R117). -/
  flush : u.phase ∈ [.flRead, .flOff, .flOn] → u.params.cached = true → u.cache.receiveEnabled = true
  /-- FLUSHRX holds the value it read (rule R117). -/
  flushOff : u.phase = .flOff → lowByte u.x.tmp = u.uart.ctrlB ∧ u.uart.rxen = true
  flushOn : u.phase = .flOn → Machine.flushOff (lowByte u.x.tmp) = u.uart.ctrlB
  /-- GETCONFIG's read-back holds the parity bits it read (rule R96). -/
  readBack : u.phase ∈ [.rbBaud, .rbBaudHigh] → u.x.cfg.extractLsb' 16 2 = u.uart.ctrlC.extractLsb' 4 2
  /-- Every response so far had a legal status (rules R78 and R79). -/
  responses : u.responses.all (fun r => legalStatus r.status) = true

/-- Two register blocks have no byte address in common (rule R61). -/
def disjointBlocks (p q : Config.Params) : Prop := p.base + 6 < q.base ∨ q.base + 6 < p.base

/-- The invariant of the machine: every peripheral's, and the register blocks are disjoint (rules R25 and R61). -/
structure State.Inv (s : State) : Prop where
  each : ∀ u ∈ s.self :: s.others, u.Inv
  blocks : (s.self :: s.others).Pairwise (fun u v => disjointBlocks u.params v.params)

/-! ### The cache and the hardware (rules R65 and R95) -/

/-- The Configuration the four configuration registers hold, as read-back would decode it (rule R90). -/
def Uart.configuration (u : Uart) : Option Configuration :=
  decCfg u.ctrlA u.ctrlB u.ctrlC (u.baud.setWidth 16)

/-- How far the registers agree with a Configuration in a phase of CONFIGURE: what the writes so far have put there. -/
def Uart.agreesUpTo (u : Uart) (csz8 : BitVec 2) (c : Configuration) (p : Phase) : Prop :=
  (p ∈ [.cfgC, .cfgBaud, .cfgBaudLow, .cfgBOn] → u.u2x = c.useDoubleSpeed ∧ u.mpcm = false) ∧
  (p ∈ [.cfgBaud, .cfgBaudLow, .cfgBOn] → u.ctrlC = encC csz8 c) ∧
  (p = .cfgBaudLow → u.baud.extractLsb' 8 4 = c.baudDivisor.extractLsb' 8 4) ∧
  (p = .cfgBOn → u.baud = c.baudDivisor)

/-- Cached variant: outside CONFIGURE the cache equals what read-back would decode, inside it the registers written so far
hold the new Configuration, and inside FLUSHRX's off interval all but receive-enable agrees (rule R65). -/
def Peripheral.Synced (u : Peripheral) : Prop :=
  u.params.cached = true →
    if u.phase ∈ .cfgBOff :: configureOff then
      ∀ c, decode u.x.cmd = .ok (.configure c) → u.uart.agreesUpTo u.params.csz8 c u.phase
    else if u.phase = .flOn then
      { u.uart with ctrlB := flushOn u.uart.ctrlB }.configuration = some u.cache
    else u.uart.configuration = some u.cache

/-! ### Leaving the working registers out (rule R18) -/

/-- An outcome with the working registers of the selected peripheral left out of the next state. -/
def Reply.withoutRegs (o : Reply State) : Reply State :=
  o.andThen fun t => .next { t with self := { t.self with x := Regs.atReset } }

/-! ### What the multi-byte commands owe (rules R110 to R116) -/

/-- The ErrorMask of a byte of the reference environment's stream (rules R44 and R78). -/
def RxByte.mask (r : RxByte) : Byte := decErr (ctrlAByte false false false r.ferr r.ovr r.perr false false)

/-- The bytes GETN receives from a stream: at most `n`, and none after the first with an error (rule R111). -/
def takeUntilError : Nat → List RxByte → List RxByte
  | 0, _ => []
  | _, [] => []
  | n + 1, r :: rs => if r.mask = ErrorMask.none then r :: takeUntilError n rs else [r]

/-- The bytes GETS receives from a stream: at most `n`, none after the first with an error or equal to the delimiter (rule
R112). -/
def takeString (delimiter : Byte) : Nat → List RxByte → List RxByte
  | 0, _ => []
  | _, [] => []
  | n + 1, r :: rs =>
      if r.mask = ErrorMask.none ∧ r.byte ≠ delimiter then r :: takeString delimiter n rs else [r]

/-- The OR of the masks of the bytes received (rule R114). -/
def totalMask (rs : List RxByte) : Byte := rs.foldl (fun e r => aggregate e r.mask) ErrorMask.none

end Sys2Proof.Machine
end

