-- ==== Sys2Proof/Certificates/Slice0/Obligations.lean ====
section
/-! DEFINITION. The statements for the provers, in the order of OBLIGATIONS.json. -/

open Sys2Proof Sys2Proof.Machine

/-! ### Encodings (30_encoding.md) -/

/-- Words of 95_test_vectors.md (V12, V39, V40, S5, V5) decode as the spec says. Rests on the spec's own decisions: D4,
D5, D7, D10, D21. -/
def Obligations.SampleWordsDecode : Prop :=
  decode 0x10006067 = .ok (.configure ⟨0x067, false, true, true, .one, .none⟩) ∧
  decode 0x1003BFFF = .ok (.configure ⟨0xFFF, true, true, false, .two, .odd⟩) ∧
  decode 0x20000000 = .ok .getconfig ∧ decode 0x30000000 = .ok .geterror ∧
  decode 0x400000FF = .ok (.putc 0xFF) ∧ decode 0x50000000 = .ok .getc ∧
  decode 0x60000002 = .ok (.putn 2) ∧ decode 0x70000005 = .ok (.getn 5) ∧
  decode 0x800A0004 = .ok (.gets 4 0x0A) ∧ decode 0x90000000 = .ok .puts ∧ decode 0xA0000000 = .ok .flushrx ∧
  decode 0x10016067 = .error .reservedParity ∧ decode 0x10046067 = .error .mustBeZero ∧
  decode 0x00000000 = .error .reservedOpcode ∧ decode 0xB0000000 = .error .reservedOpcode ∧
  decode 0x20000001 = .error .mustBeZero ∧ decode 0x81000000 = .error .mustBeZero

/-- Rules R67 to R72: no bit of an encoding is dropped. Rests on the spec's own decisions: D4, D5, D10. -/
def Obligations.DecodeOfEncode : Prop :=
  ∀ i : Instr, decode (encode i) = .ok i

/-- Rules R67 to R72: a word that decodes is the one word of its instruction. Rests on the spec's own decisions: D4, D5,
D10. -/
def Obligations.EncodeOfDecode : Prop :=
  ∀ (w : CommandWord) (i : Instr), decode w = .ok i → encode i = w

/-- Rules R69, R71, R80, R81: which words are rejected, and as what. Rests on the spec's own decisions: D4, D7, D21; the
names of the rejections are the model's. -/
def Obligations.ReservedWordsRejected : Prop :=
  ∀ w : CommandWord,
    let op := (w.extractLsb' 28 4).toNat
    let operandMask : CommandWord :=
      if op = 1 then 0x0003FFFF else if op = 4 then 0x000000FF else if op = 6 ∨ op = 7 then 0x0000FFFF
      else if op = 8 then 0x00FFFFFF else 0
    let extra := (w &&& ~~~ operandMask) &&& 0x0FFFFFFF
    if op = 0 ∨ 0xB ≤ op then decode w = .error .reservedOpcode
    else if extra ≠ 0 then decode w = .error .mustBeZero
    else if op = 1 ∧ w.extractLsb' 16 2 = 1 then decode w = .error .reservedParity
    else ∃ i, decode w = .ok i ∧ i.opcode.toNat = op

/-- Rules R72 to R75: the packed form and the record stand for each other; only the parity pattern 1 stands for none.
Rests on the spec's own decisions: D5, D10. -/
def Obligations.PackedConfigurationRoundTrip : Prop :=
  (∀ c : Configuration, Configuration.unpack c.pack = some c) ∧
  (∀ (v : BitVec 18) (c : Configuration), Configuration.unpack v = some c → c.pack = v) ∧
  (∀ v : BitVec 18, Configuration.unpack v = none ↔ v.extractLsb' 16 2 = 1)

/-! ### Encoders and decoders (40_configuration.md section 1) -/

/-- Rules R85 and R89: the enable encoder and the baud divisor loader. That `encB` writes the bits of Control B it does
not name as 0 is the spec's own decision D8, through rule R29. -/
def Obligations.EncodersOfEnableAndBaud : Prop :=
  bOff = 0x00 ∧
  ∀ c : Configuration,
    encB c = (if c.receiveEnabled then 0x10 else 0x00) + (if c.transmitEnabled then 0x08 else 0x00) ∧
    (encBaud c).extractLsb' 0 12 = c.baudDivisor ∧ (encBaud c).extractLsb' 12 4 = 0 ∧
    (∀ d : Configuration, d.baudDivisor = c.baudDivisor → encBaud d = encBaud c)

/-- Rule R86: the Control A encoder. Rests on the spec's own decision D8: the status bits are written 0. -/
def Obligations.ControlAEncoder : Prop :=
  ∀ c : Configuration,
    encA c = (if c.useDoubleSpeed then 0x42 else 0x40) ∧ bit (encA c) 6 = true ∧ bit (encA c) 0 = false

/-- Rule R87: the frame encoder, for every `CSZ8`, and its six values for `CSZ8 = 0b11`. -/
def Obligations.FrameEncoderFields : Prop :=
  ∀ (csz8 : BitVec 2) (c : Configuration),
    let v := encC csz8 c
    bit v 7 = false ∧ bit v 6 = false ∧ bit v 0 = false ∧ v.extractLsb' 4 2 = c.parity.code ∧
    v.extractLsb' 3 1 = c.stopBits.code ∧ v.extractLsb' 1 2 = csz8 ∧
    (csz8 = 3 → v = match c.parity, c.stopBits with
      | .none, .one => 0x06 | .none, .two => 0x0E | .even, .one => 0x26
      | .even, .two => 0x2E | .odd, .one => 0x36 | .odd, .two => 0x3E)

/-- Rule R91: read-back of what CONFIGURE writes, whatever the six status bits of Control A are. The rule is the spec's
own derivation from rules R85 to R90. -/
def Obligations.ReadBackRoundTrip : Prop :=
  ∀ (c : Configuration) (csz8 : BitVec 2) (status : Byte), status &&& 0x03 = 0 →
    decCfg (encA c ||| status) (encB c) (encC csz8 c) (encBaud c) = some c

/-- Rule R90: read-back takes these bits and no others, and is a Configuration unless the parity bits are `0b01`. -/
def Obligations.ReadBackTakesTheseBits : Prop :=
  ∀ (a b k : Byte) (d : BitVec 16),
    decCfg a b k d = Configuration.unpack
      (k.extractLsb' 4 2 ++ k.extractLsb' 3 1 ++ b.extractLsb' 3 1 ++ b.extractLsb' 4 1 ++ a.extractLsb' 1 1
        ++ d.extractLsb' 0 12) ∧
    (decCfg a b k d = none ↔ k.extractLsb' 4 2 = 1)

/-- Rule R98: the error decoder, in GETERROR's status and in the receive body's capture. -/
def Obligations.ErrorDecoderKeepsThreeBits : Prop :=
  (∀ (a : Byte) (i : Nat), bit (decErr a) i = (bit a i && (i == 2 || i == 3 || i == 4))) ∧
  ErrorMask.parity = 1#8 <<< 2 ∧ ErrorMask.overrun = 1#8 <<< 3 ∧ ErrorMask.frame = 1#8 <<< 4 ∧
  (∀ (i : Instr) (s : State), i.receives = true → i.wf = true → s.self.phase = .rxErr → s.self.params.wf = true →
    ∃ t, exec i s = .next t ∧ t.self.x.ebyte = decErr s.self.uart.ctrlA)

/-- Rule R79: the algebra of ErrorMasks under the aggregator. Rests on the spec's own decisions: D6; the last two
clauses are the spec's derivations. -/
def Obligations.ErrorMaskAlgebra : Prop :=
  ∀ a b c : Byte,
    aggregate a (aggregate b c) = aggregate (aggregate a b) c ∧ aggregate a b = aggregate b a ∧
    aggregate ErrorMask.none a = a ∧ aggregate a a = a ∧
    (legalStatus a = true → legalStatus b = true → a ≠ ErrorMask.disabled → b ≠ ErrorMask.disabled →
      legalStatus (aggregate a b) = true ∧ aggregate a b ≠ ErrorMask.disabled)

/-- Rules R90 and R96: the Configuration GETCONFIG assembles in `x[cfg]` over its four reads is the decoded one. Rests
on log entry 26. -/
def Obligations.AssembledConfigurationIsDecoded : Prop :=
  ∀ (a b k : Byte) (d : BitVec 16),
    Configuration.unpack (cfgFromBaud (cfgFromC (cfgFromB (cfgFromA a) b) k) d) = decCfg a b k d

/-! ### The mapped registers (10_state.md section 3, 20_memory.md) -/

/-- Rule R28: Control A under access; a read changes no bit of it. Rests on the spec's own decisions: D28 (writes to the
other bits have no effect). `emptySeen` is the model's own field, no state of the spec: log entry 7. -/
def Obligations.ControlAUnderAccess : Prop :=
  ∀ u : Peripheral, u.params.wf = true →
    (∃ v, memRead8 (u.params.base + 0) u
        = .next (v, { u with uart := { u.uart with emptySeen := u.uart.bempty }, trace := u.trace ++ [.r8 .ctrlA v] }) ∧
      bit v 7 = u.uart.waiting.isSome ∧ bit v 6 = u.uart.txc ∧ bit v 5 = u.uart.bempty ∧ bit v 4 = u.uart.ferr ∧
      bit v 3 = u.uart.ovr ∧ bit v 2 = u.uart.perr ∧ bit v 1 = u.uart.u2x ∧ bit v 0 = u.uart.mpcm) ∧
    (∀ v : Byte, memWrite8 (u.params.base + 0) v u = .next
      { u with
          uart := { u.uart with u2x := bit v 1, mpcm := bit v 0, txc := u.uart.txc && !bit v 6 }
          trace := u.trace ++ [.w8 .ctrlA v] })

/-- Rules R30 and R43: Control B under access; RXEN from 1 to 0 discards the receive path. Rests on the spec's own
decisions: D28 and D29. -/
def Obligations.ControlBUnderAccess : Prop :=
  ∀ u : Peripheral, u.params.wf = true →
    memRead8 (u.params.base + 1) u
      = .next (u.uart.ctrlB, { u with trace := u.trace ++ [.r8 .ctrlB u.uart.ctrlB] }) ∧
    (∀ v : Byte, memWrite8 (u.params.base + 1) v u = .next
      { u with
          uart :=
            if bit u.uart.ctrlB 4 = true ∧ bit v 4 = false then
              { u.uart with ctrlB := v, waiting := none, ferr := false, ovr := false, perr := false }
            else { u.uart with ctrlB := v }
          trace := u.trace ++ [.w8 .ctrlB v] })

/-- Rules R32 and R34: Control C and BAUD return the last value written; bits 15:12 of BAUD are not stored. Rests on the
spec's own decisions: D28. -/
def Obligations.ControlCAndBaudHoldWhatIsWritten : Prop :=
  ∀ u : Peripheral, u.params.wf = true →
    (∀ v : Byte, ∃ u' u'', memWrite8 (u.params.base + 2) v u = .next u' ∧
      u' = { u with uart := { u.uart with ctrlC := v }, trace := u.trace ++ [.w8 .ctrlC v] } ∧
      memRead8 (u.params.base + 2) u' = .next (v, u'') ∧ u''.uart = u'.uart) ∧
    (∀ v : BitVec 16, ∃ u' u'' r, memWrite16 (u.params.base + 4) v u = .next u' ∧
      u' = { u with uart := { u.uart with baud := v.extractLsb' 0 12 }, trace := u.trace ++ [.w16 v] } ∧
      memRead16 (u.params.base + 4) u' = .next (r, u'') ∧ u''.uart = u'.uart ∧
      r.extractLsb' 0 12 = v.extractLsb' 0 12)

/-- Rules R51 and R52: BAUD is little-endian. The byte view is the spec's derivation (rule R52). -/
def Obligations.BaudIsLittleEndian : Prop :=
  ∀ (u : Peripheral) (v : BitVec 16), u.params.wf = true → ∃ u' u'' u''' low high,
    memWrite16 (u.params.base + 4) v u = .next u' ∧
    memRead8 (u.params.base + 4) u' = .next (low, u'') ∧ memRead8 (u.params.base + 5) u'' = .next (high, u''') ∧
    low = v.extractLsb' 0 8 ∧ high.extractLsb' 0 4 = v.extractLsb' 8 4

/-- Rule R42: a read of DATA consumes the waiting byte and clears DRDY, FERR, OVR and PERR; the line side may set them
again. Rests on the spec's own decisions: D29. -/
def Obligations.DataReadConsumesTheByte : Prop :=
  ∀ (u : Peripheral) (d : Byte), u.params.wf = true → u.uart.waiting = some d →
    ∃ u', memRead8 (u.params.base + 6) u = .next (d, u') ∧
      u' = { u with
              uart := { u.uart with waiting := none, ferr := false, ovr := false, perr := false }
              trace := u.trace ++ [.r8 .data d] } ∧
      bit u'.uart.ctrlA 7 = false ∧ decErr u'.uart.ctrlA = 0 ∧
      (bit u.uart.ctrlB 4 = true → ∀ (b : Byte) (f o p : Bool),
        (u'.uart.lineAct (.deliver b f o p)).waiting = some b ∧ (u'.uart.lineAct (.deliver b f o p)).ferr = f ∧
        (u'.uart.lineAct (.deliver b f o p)).ovr = o ∧ (u'.uart.lineAct (.deliver b f o p)).perr = p)

/-- Rules R36, R53, R54: where no access has a meaning, none is made. Rests on the spec's own decisions: D31 and D35;
that the model refuses is log entries 33 and 34. -/
def Obligations.NoAccessOutsideTheMap : Prop :=
  ∀ (u : Peripheral) (a : Nat) (v : Byte) (h : BitVec 16),
    (u.params.wf = false → memRead8 a u = .refused .badRegisterBlock ∧ memWrite8 a v u = .refused .badRegisterBlock ∧
      memRead16 a u = .refused .badRegisterBlock ∧ memWrite16 a h u = .refused .badRegisterBlock) ∧
    (u.params.wf = true →
      (a ∉ [u.params.base, u.params.base + 1, u.params.base + 2, u.params.base + 4, u.params.base + 5,
          u.params.base + 6] →
        memRead8 a u = .refused (.unmappedAddress a) ∧ memWrite8 a v u = .refused (.unmappedAddress a)) ∧
      (a ≠ u.params.base + 4 →
        memRead16 a u = .refused (.unmappedAddress a) ∧ memWrite16 a h u = .refused (.unmappedAddress a)))

/-! ### The line side (10_state.md section 5) -/

/-- Rule R41: while RXEN is 0, no action of the line side sets DRDY. -/
def Obligations.DisabledReceiverNeverReady : Prop :=
  ∀ (u : Uart) (as : List LineAction), bit u.ctrlB 4 = false → u.waiting = none →
    (u.lineActs as).waiting = none ∧ bit (u.lineActs as).ctrlA 7 = false

/-- Rule R60: what a read of Control A returned as 1 stays 1, whatever the line side does after it: DRDY, and BEMPTY
while TXEN is 1 (rule R41). Rests on the spec's derivation in rule R60, and log entry 7 for BEMPTY. -/
def Obligations.ReadyFlagsPersist : Prop :=
  ∀ (u u' : Peripheral) (v : Byte) (as : List LineAction), memRead8 (u.params.base + 0) u = .next (v, u') →
    (bit v 7 = true → bit (u'.uart.lineActs as).ctrlA 7 = true) ∧
    (bit u.uart.ctrlB 3 = true → bit v 5 = true → bit (u'.uart.lineActs as).ctrlA 5 = true)

/-- Rules R27, R30, R32, R34: the line side changes no stored bit of a register. Rests on log entry 23; `emptySeen` is
the model's own field (log entry 7). -/
def Obligations.LineSideLeavesStoredBits : Prop :=
  ∀ (u : Uart) (as : List LineAction), ∃ txc bempty ferr ovr perr waiting txPath emptySeen,
    u.lineActs as = { u with txc := txc, bempty := bempty, ferr := ferr, ovr := ovr, perr := perr, waiting := waiting,
                             txPath := txPath, emptySeen := emptySeen }

/-- Rule R44: what Control A reads in the reference environment, whatever flags were left over before it; `rx_stream` is
the waiting byte, if there is one, and what the line side still holds. That a byte waits only while RXEN is 1 is part of
the invariant (rules R41 and R43). Rests on the spec's own decisions: D26, and log entry 10 for how the stream is held.
-/
def Obligations.ReferenceEnvironmentControlA : Prop :=
  ∀ (u : Peripheral) (held : List RxByte), u.line = .reference held →
    (u.uart.waiting.isSome = true → bit u.uart.ctrlB 4 = true) →
    let stream := u.uart.rxStream held
    let a := u.lineTurn.uart.ctrlA
    bit a 7 = (bit u.uart.ctrlB 4 && !stream.isEmpty) ∧ bit a 6 = false ∧ bit a 5 = bit u.uart.ctrlB 3 ∧
    bit a 1 = u.uart.u2x ∧ bit a 0 = u.uart.mpcm ∧
    (∀ r rest, stream = r :: rest → bit u.uart.ctrlB 4 = true →
      bit a 4 = r.ferr ∧ bit a 3 = r.ovr ∧ bit a 2 = r.perr ∧ u.lineTurn.uart.waiting = some r.byte ∧
      u.lineTurn.line = .reference rest) ∧
    (bit a 7 = false → decErr a = 0 ∧ u.lineTurn.line = .reference stream)

/-! ### A step of the machine -/

/-- Rules R17, R20, R21, R67: a step is the turn and the line side's actions, then the command accepted or in progress;
with no command the sequencer waits in `IDLE`; a word that is no command is refused (rule R80). Rests on the spec's own
decisions: D3 and D21; log entries 5, 6 and 35 for the environment's part. -/
def Obligations.StepRunsTheCommand : Prop :=
  ∀ s : State,
    let p := s.prepare
    (∀ c rest i, p.self.phase = .idle → p.self.port = c :: rest → decode c.word = .ok i →
      step s = exec i { p with self := p.self.accept c rest }) ∧
    (∀ i, p.self.phase ≠ .idle → decode p.self.x.cmd = .ok i → step s = exec i p) ∧
    (p.self.phase = .idle → p.self.port = [] → step s = .next p) ∧
    (∀ c rest e, p.self.phase = .idle → p.self.port = c :: rest → decode c.word = .error e →
      step s = .refused (.reservedWord e)) ∧
    (s.turns = [] → s.self.line = .script [] → p = s)

/-- Rule R21: while a command is in progress the command port is not served and the latched word stays; the command goes
on, or ends with one response. Rests on the spec's own decisions: D21. -/
def Obligations.PortServedOnlyInIdle : Prop :=
  ∀ s t : State, s.prepare.self.phase ≠ .idle → step s = .next t →
    t.self.port = s.prepare.self.port ∧ t.self.x.cmd = s.prepare.self.x.cmd ∧
    ((t.self.phase ≠ .idle ∧ t.self.responses = s.prepare.self.responses) ∨
     (t.self.phase = .idle ∧ ∃ r, t.self.responses = s.prepare.self.responses ++ [r]))

/-- Rules R20, R58, R59: accepting a command makes no access; every later step makes one access, one that its phase
names (rule R19's table), added to the end of the trace. On a bus that cannot carry 16 bits the baud access is two byte
accesses in two steps (rule R55). Rests on the spec's own decisions: D3, D11 and D2; log entry 19 for the two phases of
the split access. -/
def Obligations.OneAccessPerStep : Prop :=
  ∀ (i : Instr) (s t : State), exec i s = .next t →
    (s.self.phase = .idle → t.self.trace = s.self.trace) ∧
    (s.self.phase ≠ .idle → ∃ a, t.self.trace = s.self.trace ++ [a] ∧
      s.self.phase.names s.self.params.bus a = true)

/-- Rules R61 and R133: a command changes the selected peripheral only and depends on it only; a step changes no other
peripheral. Rests on log entry 22 for the form of the turns. -/
def Obligations.PeripheralsShareNothing : Prop :=
  (∀ (i : Instr) (s : State) (others : List Peripheral) (turns : List Nat),
    exec i { s with others := others, turns := turns } =
      Reply.andThen (exec i s) fun t => .next { t with others := others, turns := turns }) ∧
  (∀ (i : Instr) (s t : State), exec i s = .next t → t.others = s.others ∧ t.turns = s.turns) ∧
  (∀ s t : State, step s = .next t →
    (s.nextTurn.self :: s.nextTurn.others).Perm (s.self :: s.others) ∧ t.others = s.nextTurn.others)

/-- Rules R24 and R25: no step changes a parameter of a peripheral, makes a peripheral or destroys one. Rests on log
entry 1 for the parameters held in State. -/
def Obligations.ParametersNeverChange : Prop :=
  ∀ s t : State, step s = .next t →
    ((t.self :: t.others).map Peripheral.params).Perm ((s.self :: s.others).map Peripheral.params)

/-- Rules R39, R94, R119: only the last step of CONFIGURE writes the cache, in the cached variant, with its operand. -/
def Obligations.OnlyConfigureWritesTheCache : Prop :=
  ∀ (i : Instr) (s t : State), exec i s = .next t →
    (∀ c, i = .configure c → s.self.phase = .cfgBOn → s.self.params.cached = true → t.self.cache = c) ∧
    ((∀ c, i ≠ .configure c) ∨ s.self.phase ≠ .cfgBOn ∨ s.self.params.cached = false → t.self.cache = s.self.cache)

/-- Rule R158 (a): CONFIGURE alone writes Control A, Control C and BAUD; CONFIGURE and FLUSHRX alone write Control B:
the registers are as before, and the accesses a step of another command adds write none of them. -/
def Obligations.WhoWritesTheControlRegisters : Prop :=
  ∀ (i : Instr) (s t : State), exec i s = .next t → (∀ c, i ≠ .configure c) →
    t.self.uart.u2x = s.self.uart.u2x ∧ t.self.uart.mpcm = s.self.uart.mpcm ∧ t.self.uart.txc = s.self.uart.txc ∧
    t.self.uart.ctrlC = s.self.uart.ctrlC ∧ t.self.uart.baud = s.self.uart.baud ∧
    (i ≠ .flushrx → t.self.uart.ctrlB = s.self.uart.ctrlB) ∧
    ∃ added, t.self.trace = s.self.trace ++ added ∧ (∀ a ∈ added, a.writesConfiguration = false) ∧
      (i ≠ .flushrx → ∀ a ∈ added, a.writesControlB = false)

/-- Rules R49, R50, R116: which byte of the caller's buffer each command changes, and to what. Rests on the spec's own
decisions: D2 for the buffer port. -/
def Obligations.WhoChangesTheBuffer : Prop :=
  ∀ (i : Instr) (s t : State), exec i s = .next t →
    (∀ a, (s.self.phase ∈ [.rxnBuf, .rxsTerm] → a ≠ s.self.x.cnt.toNat) →
      Memory.read t.self.buffer a = Memory.read s.self.buffer a) ∧
    (s.self.phase = .rxnBuf → Memory.read t.self.buffer s.self.x.cnt.toNat = some s.self.x.dbyte) ∧
    (s.self.phase = .rxsTerm → Memory.read t.self.buffer s.self.x.cnt.toNat = some 0x00) ∧
    (s.self.phase ∈ [.rxnBuf, .rxsTerm] → i.receives = true)

/-! ### CONFIGURE, GETCONFIG, GETERROR -/

/-- Rules R92 to R94: every step of CONFIGURE, with all it changes. Rests on the spec's own decisions: D8 and D28
through `encA` and the registers, D11 for the split bus; log entry 19 for its two steps. -/
def Obligations.ConfigureSteps : Prop :=
  ∀ (c : Configuration) (s : State),
    let u := s.self
    (u.phase = .idle → exec (.configure c) s = .next { s with self := { u with phase := .cfgBOff } }) ∧
    (u.params.wf = true →
      (u.phase = .cfgBOff → exec (.configure c) s = .next { s with self :=
        { u with phase := .cfgA, uart := u.uart.writeCtrlB 0x00, trace := u.trace ++ [.w8 .ctrlB 0x00] } }) ∧
      (u.phase = .cfgA → exec (.configure c) s = .next { s with self :=
        { u with phase := .cfgC, uart := u.uart.writeCtrlA (encA c), trace := u.trace ++ [.w8 .ctrlA (encA c)] } }) ∧
      (u.phase = .cfgC → exec (.configure c) s = .next { s with self :=
        { u with phase := .cfgBaud, uart := u.uart.writeCtrlC (encC u.params.csz8 c),
                 trace := u.trace ++ [.w8 .ctrlC (encC u.params.csz8 c)] } }) ∧
      (u.phase = .cfgBaud → exec (.configure c) s = .next { s with self :=
        match u.params.bus with
        | .whole =>
            { u with phase := .cfgBOn, uart := { u.uart with baud := c.baudDivisor },
                     trace := u.trace ++ [.w16 (encBaud c)] }
        | .split =>
            { u with phase := .cfgBaudLow,
                     uart := { u.uart with baud := c.baudDivisor.extractLsb' 8 4 ++ u.uart.baud.extractLsb' 0 8 },
                     trace := u.trace ++ [.w8 .baudHigh ((encBaud c).extractLsb' 8 8)] } }) ∧
      (u.phase = .cfgBaudLow → exec (.configure c) s = .next { s with self :=
        { u with phase := .cfgBOn,
                 uart := { u.uart with baud := u.uart.baud.extractLsb' 8 4 ++ c.baudDivisor.extractLsb' 0 8 },
                 trace := u.trace ++ [.w8 .baudLow ((encBaud c).extractLsb' 0 8)] } }) ∧
      (u.phase = .cfgBOn → exec (.configure c) s = .next { s with self :=
        { u with phase := .idle, uart := u.uart.writeCtrlB (encB c), trace := u.trace ++ [.w8 .ctrlB (encB c)],
                 cache := if u.params.cached then c else u.cache,
                 responses := u.responses ++ [⟨0, none, none, none⟩] } }))

/-- Rules R93 and R146: CONFIGURE as a whole: the five writes in the fixed order (the fourth in two byte accesses on a
split bus), whatever the Configuration and the state are, and everything they leave. Rests on the spec's own decisions:
D28 and D29 for what the registers hold, D11 for the split bus. -/
def Obligations.ConfigureWritesInFixedOrder : Prop :=
  ∀ (c : Configuration) (s : State), s.self.phase = .idle → s.self.params.wf = true →
    let u := s.self
    execTimes (if u.params.bus = .split then 7 else 6) (.configure c) s = .next { s with self :=
      { u with
          trace := u.trace ++ [.w8 .ctrlB 0x00, .w8 .ctrlA (encA c), .w8 .ctrlC (encC u.params.csz8 c)] ++
            (match u.params.bus with
              | .whole => [.w16 (encBaud c)]
              | .split => [.w8 .baudHigh ((encBaud c).extractLsb' 8 8), .w8 .baudLow ((encBaud c).extractLsb' 0 8)]) ++
            [.w8 .ctrlB (encB c)]
          uart :=
            { u.uart with
                txc := false, u2x := c.useDoubleSpeed, mpcm := false, ctrlB := encB c,
                ctrlC := encC u.params.csz8 c, baud := c.baudDivisor,
                waiting := if u.uart.rxen then none else u.uart.waiting,
                ferr := !u.uart.rxen && u.uart.ferr, ovr := !u.uart.rxen && u.uart.ovr,
                perr := !u.uart.rxen && u.uart.perr }
          cache := if u.params.cached then c else u.cache
          responses := u.responses ++ [⟨0, none, none, none⟩] } }

/-- Rule R96, cached variant: GETCONFIG answers the cache, with no access, in the step that accepts it. -/
def Obligations.GetconfigFromTheCache : Prop :=
  ∀ s : State, s.self.phase = .idle → s.self.params.cached = true →
    exec .getconfig s = .next { s with self :=
      { s.self with responses := s.self.responses ++ [⟨0, none, none, some s.self.cache.pack⟩] } }

/-- Rule R96, read-back variant: four reads in order (the fourth in two byte accesses on a split bus), nothing written,
the decoded Configuration; the value of BAUD's bits 15:12 is free (log entry 11), and a parity pattern 1 is a fault
(rule R90). Rests on the spec's own decisions: D12 and D11; bits 15:12 of BAUD are log entry 11's free value, the fault
is log entry 17's, the field `emptySeen` is log entry 7's, the two steps of the split access are log entry 19's. -/
def Obligations.GetconfigReadsBack : Prop :=
  ∀ s : State, s.self.phase = .idle → s.self.params.cached = false → s.self.params.wf = true →
    let u := s.self
    let steps := if u.params.bus = .split then 6 else 5
    (∀ c, u.uart.configuration = some c → ∃ t x d n, execTimes steps .getconfig s = .next t ∧
      d.extractLsb' 0 12 = u.uart.baud ∧
      t = { s with self :=
        { u with
            x := x
            freeCount := n
            uart := { u.uart with emptySeen := u.uart.bempty }
            trace := u.trace ++ [.r8 .ctrlA u.uart.ctrlA, .r8 .ctrlB u.uart.ctrlB, .r8 .ctrlC u.uart.ctrlC] ++
              (match u.params.bus with
                | .whole => [.r16 d]
                | .split => [.r8 .baudLow (d.extractLsb' 0 8), .r8 .baudHigh (d.extractLsb' 8 8)])
            responses := u.responses ++ [⟨0, none, none, some c.pack⟩] } }) ∧
    (u.uart.configuration = none → execTimes steps .getconfig s = .fault .parityNotValid)

/-- Rule R97: GETERROR: one read of Control A, its error flags as the status, never gated. Rests on the spec's own
decisions: D30; the field `emptySeen` is the model's own (log entry 7). -/
def Obligations.GeterrorReadsTheFlags : Prop :=
  ∀ s : State,
    let u := s.self
    (u.phase = .idle → exec .geterror s = .next { s with self := { u with phase := .geA } }) ∧
    (u.phase = .geA → u.params.wf = true → exec .geterror s = .next { s with self :=
      { u with phase := .idle, x := { u.x with tmp := u.uart.ctrlA.setWidth 16 },
               uart := { u.uart with emptySeen := u.uart.bempty },
               trace := u.trace ++ [.r8 .ctrlA u.uart.ctrlA],
               responses := u.responses ++ [⟨u.uart.ctrlA &&& 0x1C, none, none, none⟩] } })

/-! ### Gates and polls (41_byte_io.md) -/

/-- Rule R108 (with R100, R101, R109): a gated command whose direction is disabled answers `DISABLED`, with an empty
trace in the cached variant and the one read of Control B in the read-back variant, and touches nothing else. Rests on
the spec's own decisions: D18 and D22. -/
def Obligations.ClosedGateTouchesNothing : Prop :=
  ∀ (i : Instr) (s : State), (i.transmits || i.receives) = true → i.wf = true → s.self.phase = .idle →
    i.gateOpen s.self = false →
    let u := s.self
    i.disabledResponse.status = 0x01 ∧ i.disabledResponse.byte = none ∧
    (∀ n, i.disabledResponse.count = some n → n = 0) ∧
    (u.params.cached = true →
      exec i s = .next { s with self := { u with responses := u.responses ++ [i.disabledResponse] } }) ∧
    (u.params.cached = false → u.params.wf = true →
      execTimes 2 i s = .next { s with self :=
        { u with x := { u.x with tmp := u.uart.ctrlB.setWidth 16 }, trace := u.trace ++ [.r8 .ctrlB u.uart.ctrlB],
                 responses := u.responses ++ [i.disabledResponse] } })

/-- Rules R100, R101, R105, R106, R110 to R113: a gated command whose direction is enabled begins: in the accepting step
in the cached variant, after the one read of Control B in the read-back variant. Rests on the spec's own decisions: D22.
-/
def Obligations.OpenGateStarts : Prop :=
  ∀ (i : Instr) (s : State), (i.transmits || i.receives) = true → i.wf = true → i.gateOpen s.self = true →
    let u := s.self
    (u.phase = .idle → u.params.cached = true → exec i s = .next { s with self := i.started u }) ∧
    (u.phase = .idle → u.params.cached = false → exec i s = .next { s with self := { u with phase := .gateB } }) ∧
    (u.phase = .gateB → u.params.cached = false → u.params.wf = true → 
      let read : Peripheral :=
        { u with x := { u.x with tmp := u.uart.ctrlB.setWidth 16 }, trace := u.trace ++ [.r8 .ctrlB u.uart.ctrlB] }
      exec i s = .next { s with self := i.started read })

/-- Rule R102: each iteration of a poll is one read of Control A; it ends at the first read with the flag at 1, and
while the flag stays 0 it goes on for any number of iterations. Rests on the spec's own decisions: D14; the field
`emptySeen` is the model's own (log entry 7). -/
def Obligations.PollReadsControlAUntilReady : Prop :=
  ∀ (i : Instr) (s : State), i.wf = true → s.self.params.wf = true →
    let u := s.self
    let read : Peripheral :=
      { u with x := { u.x with tmp := u.uart.ctrlA.setWidth 16 }, uart := { u.uart with emptySeen := u.uart.bempty },
               trace := u.trace ++ [.r8 .ctrlA u.uart.ctrlA] }
    (i.transmits = true → u.phase = .txPoll →
      exec i s = .next { s with self := { read with phase := if bit u.uart.ctrlA 5 then .txData else .txPoll } } ∧
      (bit u.uart.ctrlA 5 = false → ∀ n, ∃ x seen, execTimes n i s = .next { s with self :=
        { u with x := x, uart := { u.uart with emptySeen := seen },
                 trace := u.trace ++ List.replicate n (.r8 .ctrlA u.uart.ctrlA) } })) ∧
    (i.receives = true → u.phase = .rxPoll →
      exec i s = .next { s with self := { read with phase := if bit u.uart.ctrlA 7 then .rxErr else .rxPoll } } ∧
      (bit u.uart.ctrlA 7 = false → ∀ n, ∃ x seen, execTimes n i s = .next { s with self :=
        { u with x := x, uart := { u.uart with emptySeen := seen },
                 trace := u.trace ++ List.replicate n (.r8 .ctrlA u.uart.ctrlA) } }))

/-- Rule R150: a machine whose line side does nothing more and whose ready flag is 0 polls for ever: at no time is there
a response. Rests on the spec's own decisions: D14; the line side that does nothing is log entry 6's, the field
`emptySeen` log entry 7's. -/
def Obligations.StarvedPollNeverEnds : Prop :=
  ∀ (n : Nat) (i : Instr) (s : State), s.turns = [] → s.self.line = .script [] → s.self.params.wf = true →
    decode s.self.x.cmd = .ok i → i.wf = true →
    (i.transmits = true ∧ s.self.phase = .txPoll ∧ s.self.uart.bempty = false ∨
     i.receives = true ∧ s.self.phase = .rxPoll ∧ s.self.uart.waiting = none) →
    ∃ t, run n s = .next t ∧ t.self.phase = s.self.phase ∧ t.self.responses = s.self.responses ∧
      (∃ seen, t.self.uart = { s.self.uart with emptySeen := seen }) ∧
      t.self.trace = s.self.trace ++ List.replicate n (.r8 .ctrlA s.self.uart.ctrlA)

/-! ### PUTC and GETC (41_byte_io.md) -/

/-- Rules R103 and R105: PUTC after its gate, with the buffer empty: the poll's read, then the byte to DATA, then
`NONE`. The field `emptySeen` is the model's own (log entry 7). -/
def Obligations.PutcTransmits : Prop :=
  ∀ (byte : Byte) (s : State), s.self.params.wf = true → s.self.uart.bempty = true →
    let u := s.self
    (u.phase = .txData → exec (.putc byte) s = .next { s with self :=
      { u with phase := .idle, uart := { u.uart with txPath := u.uart.txPath ++ [u.x.dbyte], bempty := false },
               trace := u.trace ++ [.w8 .data u.x.dbyte],
               responses := u.responses ++ [⟨u.x.err, none, none, none⟩] } }) ∧
    (u.phase = .idle → u.params.cached = true → u.cache.transmitEnabled = true →
      execTimes 3 (.putc byte) s = .next { s with self :=
        { u with x := { u.x with dbyte := byte, err := 0, tmp := u.uart.ctrlA.setWidth 16 },
                 uart := { u.uart with txPath := u.uart.txPath ++ [byte], bempty := false, emptySeen := true },
                 trace := u.trace ++ [.r8 .ctrlA u.uart.ctrlA, .w8 .data byte],
                 responses := u.responses ++ [⟨0, none, none, none⟩] } })

/-- Rules R104, R106, R147: GETC after its gate, with a byte waiting: the poll's read, the capture of the error flags,
and only then the byte; both are returned, and the byte is consumed with its flags. Rests on the spec's own decisions:
D13 and D29; the field `emptySeen` is the model's own (log entry 7). -/
def Obligations.GetcReceives : Prop :=
  ∀ (s : State) (d : Byte), s.self.params.wf = true → s.self.uart.waiting = some d →
    let u := s.self
    let after : Uart := { u.uart with waiting := none, ferr := false, ovr := false, perr := false }
    (u.phase = .rxErr → exec .getc s = .next { s with self :=
      { u with phase := .rxData, x := { u.x with tmp := u.uart.ctrlA.setWidth 16, ebyte := u.uart.ctrlA &&& 0x1C },
               uart := { u.uart with emptySeen := u.uart.bempty },
               trace := u.trace ++ [.r8 .ctrlA u.uart.ctrlA] } }) ∧
    (u.phase = .rxData → exec .getc s = .next { s with self :=
      { u with phase := .idle, x := { u.x with tmp := d.setWidth 16, dbyte := d, err := u.x.err ||| u.x.ebyte },
               uart := after, trace := u.trace ++ [.r8 .data d],
               responses := u.responses ++ [⟨u.x.err ||| u.x.ebyte, some d, none, none⟩] } }) ∧
    (u.phase = .idle → u.params.cached = true → u.cache.receiveEnabled = true →
      execTimes 4 .getc s = .next { s with self :=
        { u with x := { u.x with tmp := d.setWidth 16, dbyte := d, ebyte := u.uart.ctrlA &&& 0x1C,
                                 err := u.uart.ctrlA &&& 0x1C },
                 uart := { after with emptySeen := u.uart.bempty },
                 trace := u.trace ++ [.r8 .ctrlA u.uart.ctrlA, .r8 .ctrlA u.uart.ctrlA, .r8 .data d],
                 responses := u.responses ++ [⟨u.uart.ctrlA &&& 0x1C, some d, none, none⟩] } })

/-! ### PUTN, GETN, GETS, PUTS (42_buffer_io.md): the steps of the loops -/

/-- Rule R110: the steps of PUTN's loop but the poll (rule R102). -/
def Obligations.PutnSteps : Prop :=
  ∀ (length : Len) (s : State),
    let u := s.self
    (∀ v, u.phase = .txnBuf → Memory.read u.buffer u.x.cnt.toNat = some v →
      exec (.putn length) s = .next { s with self :=
        { u with phase := .txPoll, x := { u.x with dbyte := v }, trace := u.trace ++ [.br u.x.cnt v] } }) ∧
    (u.phase = .txData → u.params.wf = true → u.uart.bempty = true →
      let sent : Peripheral :=
        { u with x := { u.x with cnt := u.x.cnt + 1 },
                 uart := { u.uart with txPath := u.uart.txPath ++ [u.x.dbyte], bempty := false },
                 trace := u.trace ++ [.w8 .data u.x.dbyte] }
      exec (.putn length) s = .next { s with self :=
        if u.x.cnt + 1 < u.x.lim then { sent with phase := .txnBuf }
        else { sent with phase := .idle, responses := u.responses ++ [⟨u.x.err, none, none, none⟩] } })

/-- Rules R111 and R128: the steps of GETN's loop but the poll (rule R102): the byte with an error is stored and counted
and is the last one. Rests on the spec's own decisions: D13 and D29; the field `emptySeen` is the model's own (log entry
7). -/
def Obligations.GetnSteps : Prop :=
  ∀ (length : Len) (s : State), s.self.params.wf = true →
    let u := s.self
    (u.phase = .rxErr → exec (.getn length) s = .next { s with self :=
      { u with phase := .rxData, x := { u.x with tmp := u.uart.ctrlA.setWidth 16, ebyte := u.uart.ctrlA &&& 0x1C },
               uart := { u.uart with emptySeen := u.uart.bempty },
               trace := u.trace ++ [.r8 .ctrlA u.uart.ctrlA] } }) ∧
    (∀ d, u.phase = .rxData → u.uart.waiting = some d → exec (.getn length) s = .next { s with self :=
      { u with phase := .rxnBuf, x := { u.x with tmp := d.setWidth 16, dbyte := d },
               uart := { u.uart with waiting := none, ferr := false, ovr := false, perr := false },
               trace := u.trace ++ [.r8 .data d] } }) ∧
    (u.phase = .rxnBuf → (Memory.read u.buffer u.x.cnt.toNat).isSome = true →
      let stored : Peripheral :=
        { u with x := { u.x with cnt := u.x.cnt + 1, err := u.x.err ||| u.x.ebyte },
                 buffer := Memory.write u.buffer u.x.cnt.toNat u.x.dbyte,
                 trace := u.trace ++ [.bw u.x.cnt u.x.dbyte] }
      exec (.getn length) s = .next { s with self :=
        if u.x.ebyte = 0 ∧ u.x.cnt + 1 < u.x.lim then { stored with phase := .rxPoll }
        else { stored with phase := .idle,
                           responses := u.responses ++ [⟨u.x.err ||| u.x.ebyte, none, some (u.x.cnt + 1), none⟩] } })

/-- Rule R112: the steps of GETS's loop but the poll (rule R102), and its terminator. Rests on the spec's own decisions:
D13, D24 and D29; the field `emptySeen` is the model's own (log entry 7). -/
def Obligations.GetsSteps : Prop :=
  ∀ (capacity : Len) (delimiter : Byte) (s : State), capacity ≠ 0 → s.self.params.wf = true →
    let u := s.self
    (u.phase = .rxErr → exec (.gets capacity delimiter) s = .next { s with self :=
      { u with phase := .rxData, x := { u.x with tmp := u.uart.ctrlA.setWidth 16, ebyte := u.uart.ctrlA &&& 0x1C },
               uart := { u.uart with emptySeen := u.uart.bempty },
               trace := u.trace ++ [.r8 .ctrlA u.uart.ctrlA] } }) ∧
    (∀ d, u.phase = .rxData → u.uart.waiting = some d → exec (.gets capacity delimiter) s = .next { s with self :=
      { u with phase := .rxnBuf, x := { u.x with tmp := d.setWidth 16, dbyte := d },
               uart := { u.uart with waiting := none, ferr := false, ovr := false, perr := false },
               trace := u.trace ++ [.r8 .data d] } }) ∧
    (u.phase = .rxnBuf → (Memory.read u.buffer u.x.cnt.toNat).isSome = true →
      exec (.gets capacity delimiter) s = .next { s with self :=
        { u with
            phase := if u.x.ebyte = 0 ∧ u.x.dbyte ≠ delimiter ∧ u.x.cnt + 1 < u.x.lim then .rxPoll else .rxsTerm
            x := { u.x with cnt := u.x.cnt + 1, err := u.x.err ||| u.x.ebyte }
            buffer := Memory.write u.buffer u.x.cnt.toNat u.x.dbyte
            trace := u.trace ++ [.bw u.x.cnt u.x.dbyte] } }) ∧
    (u.phase = .rxsTerm → (Memory.read u.buffer u.x.cnt.toNat).isSome = true →
      exec (.gets capacity delimiter) s = .next { s with self :=
        { u with
            phase := .idle
            buffer := Memory.write u.buffer u.x.cnt.toNat 0x00
            trace := u.trace ++ [.bw u.x.cnt 0x00]
            responses := u.responses ++ [⟨u.x.err, none, some u.x.cnt, none⟩] } })

/-- Rule R113: the steps of PUTS's loop but the poll (rule R102). The bound on the index is log entry 14's. Rests on the
spec's own decisions: D19 and log entry 14. -/
def Obligations.PutsSteps : Prop :=
  ∀ s : State,
    let u := s.self
    (∀ v, u.phase = .txnBuf → Memory.read u.buffer u.x.cnt.toNat = some v →
      exec .puts s = .next { s with self :=
        if v = 0x00 then
          { u with phase := .idle, x := { u.x with dbyte := v }, trace := u.trace ++ [.br u.x.cnt v],
                   responses := u.responses ++ [⟨u.x.err, none, none, none⟩] }
        else { u with phase := .txPoll, x := { u.x with dbyte := v }, trace := u.trace ++ [.br u.x.cnt v] } }) ∧
    (u.phase = .txData → u.params.wf = true → u.uart.bempty = true → u.x.cnt ≠ 0xFFFF →
      exec .puts s = .next { s with self :=
        { u with phase := .txnBuf, x := { u.x with cnt := u.x.cnt + 1 },
                 uart := { u.uart with txPath := u.uart.txPath ++ [u.x.dbyte], bempty := false },
                 trace := u.trace ++ [.w8 .data u.x.dbyte] } })

/-! ### FLUSHRX (43_flush.md) -/

/-- Rules R117 and R118, with the receiver enabled: one read of Control B, two writes built from it; every other bit is
as read and the waiting byte is gone. Rests on the spec's own decisions: D20 and D29. -/
def Obligations.FlushrxTogglesReceiveEnable : Prop :=
  ∀ s : State, s.self.phase = .idle → s.self.params.wf = true → bit s.self.uart.ctrlB 4 = true →
    (s.self.params.cached = true → s.self.cache.receiveEnabled = true) →
    let u := s.self
    execTimes 4 .flushrx s = .next { s with self :=
      { u with
          x := { u.x with tmp := u.uart.ctrlB.setWidth 16 }
          uart := { u.uart with waiting := none, ferr := false, ovr := false, perr := false }
          trace := u.trace ++ [.r8 .ctrlB u.uart.ctrlB, .w8 .ctrlB (u.uart.ctrlB &&& 0xEF),
            .w8 .ctrlB (u.uart.ctrlB ||| 0x10)]
          responses := u.responses ++ [⟨0, none, none, none⟩] } }

/-- Rule R117, its steps: the no-op of a disabled receiver (no access in the cached variant, the one read in the
read-back variant), and each of the three accesses, the case of a stale cache (corner case d) among them. Rests on the
spec's own decisions: D20 and D28. -/
def Obligations.FlushrxSteps : Prop :=
  ∀ s : State,
    let u := s.self
    (u.phase = .idle → exec .flushrx s = .next { s with self :=
      if u.params.cached = true ∧ u.cache.receiveEnabled = false then
        { u with responses := u.responses ++ [⟨0, none, none, none⟩] }
      else { u with phase := .flRead } }) ∧
    (u.params.wf = true →
      (u.phase = .flRead →
        let read : Peripheral := { u with x := { u.x with tmp := u.uart.ctrlB.setWidth 16 },
                                          trace := u.trace ++ [.r8 .ctrlB u.uart.ctrlB] }
        exec .flushrx s = .next { s with self :=
          if u.params.cached = false ∧ bit u.uart.ctrlB 4 = false then
            { read with phase := .idle, responses := u.responses ++ [⟨0, none, none, none⟩] }
          else { read with phase := .flOff } }) ∧
      (u.phase = .flOff →
        let v := u.x.tmp.extractLsb' 0 8 &&& 0xEF
        exec .flushrx s = .next { s with self :=
          { u with phase := .flOn, uart := u.uart.writeCtrlB v, trace := u.trace ++ [.w8 .ctrlB v] } }) ∧
      (u.phase = .flOn →
        let v := u.x.tmp.extractLsb' 0 8 ||| 0x10
        exec .flushrx s = .next { s with self :=
          { u with phase := .idle, uart := u.uart.writeCtrlB v, trace := u.trace ++ [.w8 .ctrlB v],
                   responses := u.responses ++ [⟨0, none, none, none⟩] } }))

/-! ### Where the spec gives no behaviour -/

/-- Rules R53, R80, R90, R112 (d), R113 (c), R116: the stops, each under its own name: a bad register block stops every
step that makes a register access; a word that is no command; capacity 0; an index the buffer does not have, in each
phase that accesses the buffer; a string with no 0x00, also past the last index there is (log entry 14); the parity
pattern 1, at the last access of the read-back. Rests on the spec's own decisions: D17, D31 and D35, and log entries 13
to 17, 19 and 34. -/
def Obligations.StopsAreNamed : Prop :=
  (∀ (i : Instr) (s : State), s.self.params.wf = false → i.wf = true → s.self.phase ∈ i.phases s.self.params →
    s.self.phase ∉ [.txnBuf, .rxnBuf, .rxsTerm] → exec i s = .refused .badRegisterBlock) ∧
  (∀ (s : State) (c : HostCommand) (rest : List HostCommand) (e : Reject), s.prepare.self.phase = .idle →
    s.prepare.self.port = c :: rest → decode c.word = .error e → step s = .refused (.reservedWord e)) ∧
  (∀ (d : Byte) (s : State), exec (.gets 0 d) s = .refused .capacityZero) ∧
  (∀ (n : Len) (s : State), s.self.phase = .txnBuf → Memory.read s.self.buffer s.self.x.cnt.toNat = none →
    exec (.putn n) s = .refused (.outsideBuffer s.self.x.cnt) ∧ exec .puts s = .refused .unterminatedString) ∧
  (∀ (n : Len) (s : State), s.self.phase = .rxnBuf → Memory.read s.self.buffer s.self.x.cnt.toNat = none →
    exec (.getn n) s = .refused (.outsideBuffer s.self.x.cnt) ∧
    ∀ d, n ≠ 0 → exec (.gets n d) s = .refused (.outsideBuffer s.self.x.cnt)) ∧
  (∀ (n : Len) (d : Byte) (s : State), n ≠ 0 → s.self.phase = .rxsTerm →
    Memory.read s.self.buffer s.self.x.cnt.toNat = none →
    exec (.gets n d) s = .refused (.outsideBuffer s.self.x.cnt)) ∧
  (∀ s : State, s.self.phase = .txData → s.self.params.wf = true → s.self.uart.bempty = true →
    s.self.x.cnt = 0xFFFF → exec .puts s = .refused .unterminatedString) ∧
  (∀ s : State, s.self.phase = .rbBaud ∧ s.self.params.bus = .whole ∨ s.self.phase = .rbBaudHigh →
    s.self.params.wf = true → s.self.x.cfg.extractLsb' 16 2 = 1 → exec .getconfig s = .fault .parityNotValid)

/-! ### Whole commands in the reference environment (rules R44, R110 to R116) -/

/-- Rule R110: PUTN, presented with its buffer, sends the first `length` bytes in index order and answers `NONE`.
Rests on the spec's own decisions: D26, and log entry 10. Rests on the spec's own decisions: D26, and log entry 10. -/
def Obligations.PutnSendsTheBuffer : Prop :=
  ∀ (s : State) (length : Len) (bytes : List Byte) (rest : List HostCommand) (stream : List RxByte),
    s.turns = [] → s.self.line = .reference stream → s.self.phase = .idle → s.self.params.wf = true →
    s.self.port = ⟨encode (.putn length), some bytes⟩ :: rest → length.toNat ≤ bytes.length →
    bit s.self.uart.ctrlB 3 = true → (s.self.params.cached = true → s.self.cache.transmitEnabled = true) →
    ∃ t, run ((if s.self.params.cached then 1 else 2) + 3 * length.toNat) s = .next t ∧
      t.self.phase = .idle ∧ t.self.port = rest ∧
      txLog t.self.trace = txLog s.self.trace ++ bytes.take length.toNat ∧
      t.self.responses = s.self.responses ++ [⟨0, none, none, none⟩] ∧ t.self.buffer = Memory.ofBytes bytes ∧
      t.self.cache = s.self.cache ∧ t.others = s.others

/-- Rule R113: PUTS sends the bytes before the first 0x00 and answers `NONE`. Rests on the spec's own decisions: D19,
D26, and log entries 10 and 14. -/
def Obligations.PutsSendsTheString : Prop :=
  ∀ (s : State) (str more : List Byte) (rest : List HostCommand) (stream : List RxByte),
    s.turns = [] → s.self.line = .reference stream → s.self.phase = .idle → s.self.params.wf = true →
    s.self.port = ⟨encode .puts, some (str ++ 0x00 :: more)⟩ :: rest → 0x00 ∉ str → str.length ≤ 0xFFFF →
    bit s.self.uart.ctrlB 3 = true → (s.self.params.cached = true → s.self.cache.transmitEnabled = true) →
    ∃ t, run ((if s.self.params.cached then 1 else 2) + 3 * str.length + 1) s = .next t ∧
      t.self.phase = .idle ∧ t.self.port = rest ∧ txLog t.self.trace = txLog s.self.trace ++ str ∧
      t.self.responses = s.self.responses ++ [⟨0, none, none, none⟩] ∧
      t.self.buffer = Memory.ofBytes (str ++ 0x00 :: more) ∧ t.self.cache = s.self.cache ∧ t.others = s.others

/-- Rules R111, R114, R115: GETN receives until the first error, or `length` bytes, beginning with a byte that waits
already; they are in the buffer, the rest of the buffer is as it was, and the response counts them and carries their
errors. Rests on the spec's own decisions: D13, D26, and log entry 10. -/
def Obligations.GetnReceivesUntilError : Prop :=
  ∀ (s : State) (length : Len) (bytes : List Byte) (rest : List HostCommand) (stream : List RxByte),
    s.turns = [] → s.self.line = .reference stream → s.self.phase = .idle →
    s.self.params.wf = true → s.self.port = ⟨encode (.getn length), some bytes⟩ :: rest →
    length.toNat ≤ bytes.length → bit s.self.uart.ctrlB 4 = true →
    (s.self.params.cached = true → s.self.cache.receiveEnabled = true) →
    let got := takeUntilError length.toNat (s.self.uart.rxStream stream)
    got.length = length.toNat ∨ totalMask got ≠ 0 →
    ∃ t, run ((if s.self.params.cached then 1 else 2) + 4 * got.length) s = .next t ∧
      t.self.phase = .idle ∧ t.self.port = rest ∧
      t.self.buffer = Memory.ofBytes (got.map RxByte.byte ++ bytes.drop got.length) ∧
      t.self.responses = s.self.responses ++ [⟨totalMask got, none, some (BitVec.ofNat 16 got.length), none⟩] ∧
      t.self.cache = s.self.cache ∧ t.others = s.others

/-- Rules R112, R114, R115: GETS receives at most `capacity - 1` bytes, beginning with a byte that waits already, up to
the first error or delimiter, terminates the string, and answers the count without the terminator. Rests on the spec's
own decisions: D13, D24, D26, and log entry 10. -/
def Obligations.GetsReceivesAString : Prop :=
  ∀ (s : State) (capacity : Len) (delimiter : Byte) (bytes : List Byte) (rest : List HostCommand)
    (stream : List RxByte),
    s.turns = [] → s.self.line = .reference stream → s.self.phase = .idle →
    s.self.params.wf = true → s.self.port = ⟨encode (.gets capacity delimiter), some bytes⟩ :: rest →
    capacity ≠ 0 → capacity.toNat ≤ bytes.length → bit s.self.uart.ctrlB 4 = true →
    (s.self.params.cached = true → s.self.cache.receiveEnabled = true) →
    let got := takeString delimiter (capacity.toNat - 1) (s.self.uart.rxStream stream)
    got.length = capacity.toNat - 1 ∨ totalMask got ≠ 0 ∨ (∃ r ∈ got, r.byte = delimiter) →
    ∃ t, run ((if s.self.params.cached then 1 else 2) + 4 * got.length + 1) s = .next t ∧
      t.self.phase = .idle ∧ t.self.port = rest ∧
      t.self.buffer = Memory.ofBytes (got.map RxByte.byte ++ 0x00 :: bytes.drop (got.length + 1)) ∧
      t.self.responses = s.self.responses ++ [⟨totalMask got, none, some (BitVec.ofNat 16 got.length), none⟩] ∧
      t.self.cache = s.self.cache ∧ t.others = s.others

/-- Rules R65, R91, R96 (e): in both variants GETCONFIG right after `CONFIGURE c` returns `c`, whatever the line side
did in between, and changes no register. Rests on the spec's derivation in rules R65 and R91; D12 and D28; log entry 19
for the steps of a split bus, log entry 7 for the field `emptySeen`. -/
def Obligations.GetconfigReturnsWhatConfigureSet : Prop :=
  ∀ (c : Configuration) (s : State) (as : List LineAction), s.self.phase = .idle → s.self.params.wf = true →
    let split := s.self.params.bus = .split
    ∃ t, execTimes (if split then 7 else 6) (.configure c) s = .next t ∧
      let t' : State := { t with self := { t.self with uart := t.self.uart.lineActs as } }
      ∃ r, execTimes (if s.self.params.cached then 1 else if split then 6 else 5) .getconfig t' = .next r ∧
        r.self.responses = t.self.responses ++ [⟨0, none, none, some c.pack⟩] ∧ r.self.phase = .idle ∧
        (∃ seen, r.self.uart = { t'.self.uart with emptySeen := seen }) ∧ r.self.cache = t.self.cache

/-! ### Reset and the invariants -/

/-- Rules R45 and R140: every peripheral right after reset, for all parameters. The values of the status bits of Control
A but DRDY are log entry 2's. Rests on the spec's own decisions: D15, D16 and D32. -/
def Obligations.ResetState : Prop :=
  ∀ (p : Config.Params) (more : List Config.Params),
    ((State.atReset p more).self :: (State.atReset p more).others).map Peripheral.params = p :: more ∧
    ∀ u ∈ (State.atReset p more).self :: (State.atReset p more).others,
      u.phase = .idle ∧ u.cache = Configuration.startup ∧ u.cache.pack = 0x00000 ∧
      u.cache.receiveEnabled = false ∧ u.cache.transmitEnabled = false ∧
      u.uart.waiting = none ∧ bit u.uart.ctrlA 7 = false ∧
      bit u.uart.ctrlA 1 = bit u.params.resetA 1 ∧ bit u.uart.ctrlA 0 = bit u.params.resetA 0 ∧
      u.uart.ctrlB = u.params.resetB ∧ u.uart.ctrlC = u.params.resetC ∧
      u.uart.baud = u.params.resetBaud.extractLsb' 0 12 ∧ u.trace = [] ∧ u.responses = []

/-- The invariant holds after reset for all parameters the spec allows, and the cache agrees with the hardware after the
reset of this model (whose register values are log entry 2's; rule R141's consistency check). -/
def Obligations.ResetMeetsTheInvariants : Prop :=
  (∀ (p : Config.Params) (more : List Config.Params), (∀ q ∈ p :: more, q.wf = true) →
    (p :: more).Pairwise disjointBlocks → (State.atReset p more).Inv) ∧
  State.reset.Inv ∧ ∀ u ∈ State.reset.self :: State.reset.others, u.Synced

/-- Rules R19, R41, R49, R78, R95, R115, R117, R145, R148: every step keeps the invariant. Rests on the spec's
derivations in rules R79, R95 and R115; log entries 7 and 20. -/
def Obligations.StepKeepsTheInvariant : Prop :=
  ∀ s t : State, s.Inv → step s = .next t → t.Inv

/-- Rules R80, R90, R112 (d), R113 (c), R116 for the stops, and R35, R36, R47, R53, R121, R148 for there being no other:
from a state that meets the invariant a step stops only where the spec gives the command no behaviour; no access is ever
made outside the map, none to DATA before its ready flag. Rests on the spec's own decision D17, and log entries 13 to 18
for the stops and their names, 19 for the second half of a split access. -/
def Obligations.OnlyNamedStops : Prop :=
  ∀ s : State, s.Inv →
    (∀ f, step s = .fault f →
      f = .parityNotValid ∧ s.prepare.self.params.cached = false ∧ s.prepare.self.phase ∈ [.rbBaud, .rbBaudHigh] ∧
      s.prepare.self.uart.ctrlC.extractLsb' 4 2 = 1) ∧
    (∀ r, step s = .refused r →
      (∃ e, r = .reservedWord e) ∧ s.prepare.self.phase = .idle ∨ r = .capacityZero ∧ s.prepare.self.phase = .idle ∨
      (∃ k, r = .outsideBuffer k) ∧ Memory.read s.prepare.self.buffer s.prepare.self.x.cnt.toNat = none ∨
      r = .unterminatedString ∧ s.prepare.self.phase ∈ [.txnBuf, .txData])

/-- Rules R65 and R95: in the cached variant the cache stays in step with the hardware. Rests on the spec's derivations
in rules R65, R91 and R95. -/
def Obligations.CacheStaysInStepWithTheHardware : Prop :=
  ∀ s t : State, s.Inv → (∀ u ∈ s.self :: s.others, u.Synced) → step s = .next t →
    ∀ u ∈ t.self :: t.others, u.Synced

/-- Rule R18: no command reads a working register left by an earlier command: from `IDLE`, runs that differ only in the
working registers agree in everything else at all times. It holds whatever values the registers have between commands
(log entry 3 names one). -/
def Obligations.WorkingRegistersDoNotLeak : Prop :=
  ∀ (n : Nat) (s : State) (r : Regs), s.turns = [] → s.self.phase = .idle →
    (run n { s with self := { s.self with x := r } }).withoutRegs = (run n s).withoutRegs
end

