-- ==== Sys2Proof/Laws/Memory.lean ====
section
/-! SUPPORT. The caller's buffer (rule R49): a read after a write, the frame of a write, and that every operation keeps the
canonical form. -/

namespace Sys2Proof.Machine

/-- A buffer in canonical form from index `k` on lists exactly the indices `k, ..., k + length - 1`. -/
theorem Memory.read_isSome_of_wfFrom {k : Nat} {m : List Host.Cell} (h : Memory.wfFrom k m = true) (i : Nat) :
    (Memory.read m i).isSome = decide (k ≤ i ∧ i < k + m.length) := by
  induction m generalizing k with
  | nil => simp [Memory.read, Memory.unlisted]
  | cons c m ih =>
    obtain ⟨a, b⟩ := c
    simp only [Memory.wfFrom, Bool.and_eq_true, beq_iff_eq] at h
    obtain ⟨rfl, h⟩ := h
    simp only [Memory.read, List.length_cons]
    split
    · subst_vars; simp
    · rw [ih h]; simp only [decide_eq_decide]; omega

/-- The indices of a buffer in canonical form are exactly those below its size. -/
theorem Memory.read_isSome_iff {m : List Host.Cell} (h : Memory.wf m = true) (i : Nat) :
    (Memory.read m i).isSome = true ↔ i < m.length := by
  rw [Memory.read_isSome_of_wfFrom h]; simp

/-- The canonical form is strictly rising. -/
theorem Memory.wfFrom_rising {k : Nat} {m : List Host.Cell} (h : Memory.wfFrom k m = true) :
    m.Pairwise (fun c d => c.1 < d.1) ∧ ∀ c ∈ m, k ≤ c.1 := by
  induction m generalizing k with
  | nil => simp
  | cons c m ih =>
    obtain ⟨a, b⟩ := c
    simp only [Memory.wfFrom, Bool.and_eq_true, beq_iff_eq] at h
    obtain ⟨rfl, h⟩ := h
    obtain ⟨hp, hk⟩ := ih h
    refine ⟨List.pairwise_cons.2 ⟨fun d hd => ?_, hp⟩, fun c hc => ?_⟩
    · have := hk d hd; simp only; omega
    · rcases List.mem_cons.1 hc with rfl | hc
      · exact Nat.le_refl _
      · have := hk c hc; omega

@[simp] theorem Memory.write_length (m : List Host.Cell) (i : Nat) (v : Byte) :
    (Memory.write m i v).length = m.length := by
  induction m with
  | nil => rfl
  | cons c m ih => obtain ⟨a, b⟩ := c; simp only [Memory.write]; split <;> simp [ih]

/-- A write keeps the canonical form. -/
theorem Memory.wfFrom_write {k : Nat} {m : List Host.Cell} (h : Memory.wfFrom k m = true) (i : Nat) (v : Byte) :
    Memory.wfFrom k (Memory.write m i v) = true := by
  induction m generalizing k with
  | nil => rfl
  | cons c m ih =>
    obtain ⟨a, b⟩ := c
    simp only [Memory.wfFrom, Bool.and_eq_true, beq_iff_eq] at h
    obtain ⟨rfl, h⟩ := h
    simp only [Memory.write]
    split
    · simp [Memory.wfFrom, h]
    · simp [Memory.wfFrom, ih h]

theorem Memory.wf_write {m : List Host.Cell} (h : Memory.wf m = true) (i : Nat) (v : Byte) :
    Memory.wf (Memory.write m i v) = true := Memory.wfFrom_write h i v

/-- A write to an index of the buffer is what a read of that index then returns. -/
theorem Memory.read_write_same {m : List Host.Cell} {i : Nat} (h : (Memory.read m i).isSome = true) (v : Byte) :
    Memory.read (Memory.write m i v) i = some v := by
  induction m with
  | nil => simp [Memory.read, Memory.unlisted] at h
  | cons c m ih =>
    obtain ⟨a, b⟩ := c
    simp only [Memory.read, Memory.write] at h ⊢
    split
    · rename_i e; simp [Memory.read, e]
    · rename_i e; rw [if_neg e] at h; simp only [Memory.read, if_neg e]; exact ih h

/-- A write leaves every other index alone. -/
theorem Memory.read_write_of_ne {m : List Host.Cell} {i j : Nat} (h : j ≠ i) (v : Byte) :
    Memory.read (Memory.write m i v) j = Memory.read m j := by
  induction m with
  | nil => rfl
  | cons c m ih =>
    obtain ⟨a, b⟩ := c
    simp only [Memory.write]
    split
    · subst_vars; simp [Memory.read, Ne.symm h]
    · simp only [Memory.read]; split
      · rfl
      · exact ih

theorem Memory.wfFrom_cellsFrom (k : Nat) (bytes : List Byte) :
    Memory.wfFrom k (Memory.cellsFrom k bytes) = true := by
  induction bytes generalizing k with
  | nil => rfl
  | cons b bs ih => simp [Memory.cellsFrom, Memory.wfFrom, ih]

/-- The buffer the host attaches is in canonical form. -/
theorem Memory.wf_ofBytes (bytes : List Byte) : Memory.wf (Memory.ofBytes bytes) = true :=
  Memory.wfFrom_cellsFrom 0 bytes

theorem Memory.read_cellsFrom (k : Nat) (bytes : List Byte) (i : Nat) :
    Memory.read (Memory.cellsFrom k bytes) (k + i) = bytes[i]? := by
  induction bytes generalizing k i with
  | nil => rfl
  | cons b bs ih =>
    simp only [Memory.cellsFrom, Memory.read]
    cases i with
    | zero => simp
    | succ i =>
      rw [if_neg (by omega), show k + (i + 1) = (k + 1) + i by omega, ih]
      simp

/-- Index `i` of the buffer that holds `bytes` reads as byte `i`. -/
theorem Memory.read_ofBytes (bytes : List Byte) (i : Nat) :
    Memory.read (Memory.ofBytes bytes) i = bytes[i]? := by
  simpa [Memory.ofBytes] using Memory.read_cellsFrom 0 bytes i

/-- Every buffer after reset is in canonical form, for all parameters. -/
theorem State.atReset_buffer_wf (p : Config.Params) (more : List Config.Params) :
    ∀ u ∈ (State.atReset p more).self :: (State.atReset p more).others, Memory.wf u.buffer = true := by
  intro u hu
  simp only [State.atReset, List.mem_cons, List.mem_map] at hu
  obtain rfl | ⟨q, -, rfl⟩ := hu <;> rfl

end Sys2Proof.Machine
end

