-- ==== Sys2Proof/Laws/State.lean ====
section
/-! SUPPORT. One lemma per field per update of a peripheral and of a UART, true by `rfl`, so that no later proof unfolds a
record update. -/

namespace Sys2Proof.Machine

section PeripheralUpdates

variable (u : Peripheral)

@[simp] theorem Peripheral.goto_params (p : Phase) : (u.goto p).params = u.params := rfl
@[simp] theorem Peripheral.goto_phase (p : Phase) : (u.goto p).phase = p := rfl
@[simp] theorem Peripheral.goto_x (p : Phase) : (u.goto p).x = u.x := rfl
@[simp] theorem Peripheral.goto_cache (p : Phase) : (u.goto p).cache = u.cache := rfl
@[simp] theorem Peripheral.goto_uart (p : Phase) : (u.goto p).uart = u.uart := rfl
@[simp] theorem Peripheral.goto_buffer (p : Phase) : (u.goto p).buffer = u.buffer := rfl
@[simp] theorem Peripheral.goto_port (p : Phase) : (u.goto p).port = u.port := rfl
@[simp] theorem Peripheral.goto_line (p : Phase) : (u.goto p).line = u.line := rfl
@[simp] theorem Peripheral.goto_trace (p : Phase) : (u.goto p).trace = u.trace := rfl
@[simp] theorem Peripheral.goto_responses (p : Phase) : (u.goto p).responses = u.responses := rfl
@[simp] theorem Peripheral.goto_freeCount (p : Phase) : (u.goto p).freeCount = u.freeCount := rfl

@[simp] theorem Peripheral.emit_params (a : Access) : (u.emit a).params = u.params := rfl
@[simp] theorem Peripheral.emit_phase (a : Access) : (u.emit a).phase = u.phase := rfl
@[simp] theorem Peripheral.emit_x (a : Access) : (u.emit a).x = u.x := rfl
@[simp] theorem Peripheral.emit_cache (a : Access) : (u.emit a).cache = u.cache := rfl
@[simp] theorem Peripheral.emit_uart (a : Access) : (u.emit a).uart = u.uart := rfl
@[simp] theorem Peripheral.emit_buffer (a : Access) : (u.emit a).buffer = u.buffer := rfl
@[simp] theorem Peripheral.emit_port (a : Access) : (u.emit a).port = u.port := rfl
@[simp] theorem Peripheral.emit_line (a : Access) : (u.emit a).line = u.line := rfl
@[simp] theorem Peripheral.emit_trace (a : Access) : (u.emit a).trace = u.trace ++ [a] := rfl
@[simp] theorem Peripheral.emit_responses (a : Access) : (u.emit a).responses = u.responses := rfl
@[simp] theorem Peripheral.emit_freeCount (a : Access) : (u.emit a).freeCount = u.freeCount := rfl

@[simp] theorem Peripheral.setX_params (r : Regs) : (u.setX r).params = u.params := rfl
@[simp] theorem Peripheral.setX_phase (r : Regs) : (u.setX r).phase = u.phase := rfl
@[simp] theorem Peripheral.setX_x (r : Regs) : (u.setX r).x = r := rfl
@[simp] theorem Peripheral.setX_cache (r : Regs) : (u.setX r).cache = u.cache := rfl
@[simp] theorem Peripheral.setX_uart (r : Regs) : (u.setX r).uart = u.uart := rfl
@[simp] theorem Peripheral.setX_buffer (r : Regs) : (u.setX r).buffer = u.buffer := rfl
@[simp] theorem Peripheral.setX_port (r : Regs) : (u.setX r).port = u.port := rfl
@[simp] theorem Peripheral.setX_line (r : Regs) : (u.setX r).line = u.line := rfl
@[simp] theorem Peripheral.setX_trace (r : Regs) : (u.setX r).trace = u.trace := rfl
@[simp] theorem Peripheral.setX_responses (r : Regs) : (u.setX r).responses = u.responses := rfl
@[simp] theorem Peripheral.setX_freeCount (r : Regs) : (u.setX r).freeCount = u.freeCount := rfl

@[simp] theorem Peripheral.setUart_params (v : Uart) : (u.setUart v).params = u.params := rfl
@[simp] theorem Peripheral.setUart_phase (v : Uart) : (u.setUart v).phase = u.phase := rfl
@[simp] theorem Peripheral.setUart_x (v : Uart) : (u.setUart v).x = u.x := rfl
@[simp] theorem Peripheral.setUart_cache (v : Uart) : (u.setUart v).cache = u.cache := rfl
@[simp] theorem Peripheral.setUart_uart (v : Uart) : (u.setUart v).uart = v := rfl
@[simp] theorem Peripheral.setUart_buffer (v : Uart) : (u.setUart v).buffer = u.buffer := rfl
@[simp] theorem Peripheral.setUart_port (v : Uart) : (u.setUart v).port = u.port := rfl
@[simp] theorem Peripheral.setUart_line (v : Uart) : (u.setUart v).line = u.line := rfl
@[simp] theorem Peripheral.setUart_trace (v : Uart) : (u.setUart v).trace = u.trace := rfl
@[simp] theorem Peripheral.setUart_responses (v : Uart) : (u.setUart v).responses = u.responses := rfl
@[simp] theorem Peripheral.setUart_freeCount (v : Uart) : (u.setUart v).freeCount = u.freeCount := rfl

@[simp] theorem Peripheral.setBuffer_params (m : List Host.Cell) : (u.setBuffer m).params = u.params := rfl
@[simp] theorem Peripheral.setBuffer_phase (m : List Host.Cell) : (u.setBuffer m).phase = u.phase := rfl
@[simp] theorem Peripheral.setBuffer_x (m : List Host.Cell) : (u.setBuffer m).x = u.x := rfl
@[simp] theorem Peripheral.setBuffer_cache (m : List Host.Cell) : (u.setBuffer m).cache = u.cache := rfl
@[simp] theorem Peripheral.setBuffer_uart (m : List Host.Cell) : (u.setBuffer m).uart = u.uart := rfl
@[simp] theorem Peripheral.setBuffer_buffer (m : List Host.Cell) : (u.setBuffer m).buffer = m := rfl
@[simp] theorem Peripheral.setBuffer_port (m : List Host.Cell) : (u.setBuffer m).port = u.port := rfl
@[simp] theorem Peripheral.setBuffer_line (m : List Host.Cell) : (u.setBuffer m).line = u.line := rfl
@[simp] theorem Peripheral.setBuffer_trace (m : List Host.Cell) : (u.setBuffer m).trace = u.trace := rfl
@[simp] theorem Peripheral.setBuffer_responses (m : List Host.Cell) : (u.setBuffer m).responses = u.responses := rfl
@[simp] theorem Peripheral.setBuffer_freeCount (m : List Host.Cell) : (u.setBuffer m).freeCount = u.freeCount := rfl

@[simp] theorem Peripheral.setCache_params (c : Configuration) : (u.setCache c).params = u.params := rfl
@[simp] theorem Peripheral.setCache_phase (c : Configuration) : (u.setCache c).phase = u.phase := rfl
@[simp] theorem Peripheral.setCache_x (c : Configuration) : (u.setCache c).x = u.x := rfl
@[simp] theorem Peripheral.setCache_cache (c : Configuration) : (u.setCache c).cache = c := rfl
@[simp] theorem Peripheral.setCache_uart (c : Configuration) : (u.setCache c).uart = u.uart := rfl
@[simp] theorem Peripheral.setCache_buffer (c : Configuration) : (u.setCache c).buffer = u.buffer := rfl
@[simp] theorem Peripheral.setCache_port (c : Configuration) : (u.setCache c).port = u.port := rfl
@[simp] theorem Peripheral.setCache_line (c : Configuration) : (u.setCache c).line = u.line := rfl
@[simp] theorem Peripheral.setCache_trace (c : Configuration) : (u.setCache c).trace = u.trace := rfl
@[simp] theorem Peripheral.setCache_responses (c : Configuration) : (u.setCache c).responses = u.responses := rfl
@[simp] theorem Peripheral.setCache_freeCount (c : Configuration) : (u.setCache c).freeCount = u.freeCount := rfl

@[simp] theorem Peripheral.useFree_params : (u.useFree).params = u.params := rfl
@[simp] theorem Peripheral.useFree_phase : (u.useFree).phase = u.phase := rfl
@[simp] theorem Peripheral.useFree_x : (u.useFree).x = u.x := rfl
@[simp] theorem Peripheral.useFree_cache : (u.useFree).cache = u.cache := rfl
@[simp] theorem Peripheral.useFree_uart : (u.useFree).uart = u.uart := rfl
@[simp] theorem Peripheral.useFree_buffer : (u.useFree).buffer = u.buffer := rfl
@[simp] theorem Peripheral.useFree_port : (u.useFree).port = u.port := rfl
@[simp] theorem Peripheral.useFree_line : (u.useFree).line = u.line := rfl
@[simp] theorem Peripheral.useFree_trace : (u.useFree).trace = u.trace := rfl
@[simp] theorem Peripheral.useFree_responses : (u.useFree).responses = u.responses := rfl
@[simp] theorem Peripheral.useFree_freeCount : (u.useFree).freeCount = u.freeCount + 1 := rfl

@[simp] theorem Peripheral.setTmp_params (v : BitVec 16) : (u.setTmp v).params = u.params := rfl
@[simp] theorem Peripheral.setTmp_phase (v : BitVec 16) : (u.setTmp v).phase = u.phase := rfl
@[simp] theorem Peripheral.setTmp_x (v : BitVec 16) : (u.setTmp v).x = { u.x with tmp := v } := rfl
@[simp] theorem Peripheral.setTmp_cache (v : BitVec 16) : (u.setTmp v).cache = u.cache := rfl
@[simp] theorem Peripheral.setTmp_uart (v : BitVec 16) : (u.setTmp v).uart = u.uart := rfl
@[simp] theorem Peripheral.setTmp_buffer (v : BitVec 16) : (u.setTmp v).buffer = u.buffer := rfl
@[simp] theorem Peripheral.setTmp_port (v : BitVec 16) : (u.setTmp v).port = u.port := rfl
@[simp] theorem Peripheral.setTmp_line (v : BitVec 16) : (u.setTmp v).line = u.line := rfl
@[simp] theorem Peripheral.setTmp_trace (v : BitVec 16) : (u.setTmp v).trace = u.trace := rfl
@[simp] theorem Peripheral.setTmp_responses (v : BitVec 16) : (u.setTmp v).responses = u.responses := rfl
@[simp] theorem Peripheral.setTmp_freeCount (v : BitVec 16) : (u.setTmp v).freeCount = u.freeCount := rfl

@[simp] theorem Peripheral.complete_params (r : Response) : (u.complete r).params = u.params := rfl
@[simp] theorem Peripheral.complete_phase (r : Response) : (u.complete r).phase = .idle := rfl
@[simp] theorem Peripheral.complete_x (r : Response) : (u.complete r).x = u.x := rfl
@[simp] theorem Peripheral.complete_cache (r : Response) : (u.complete r).cache = u.cache := rfl
@[simp] theorem Peripheral.complete_uart (r : Response) : (u.complete r).uart = u.uart := rfl
@[simp] theorem Peripheral.complete_buffer (r : Response) : (u.complete r).buffer = u.buffer := rfl
@[simp] theorem Peripheral.complete_port (r : Response) : (u.complete r).port = u.port := rfl
@[simp] theorem Peripheral.complete_line (r : Response) : (u.complete r).line = u.line := rfl
@[simp] theorem Peripheral.complete_trace (r : Response) : (u.complete r).trace = u.trace := rfl
@[simp] theorem Peripheral.complete_responses (r : Response) : (u.complete r).responses = u.responses ++ [r] := rfl
@[simp] theorem Peripheral.complete_freeCount (r : Response) : (u.complete r).freeCount = u.freeCount := rfl

@[simp] theorem Peripheral.lineTurn_params : (u.lineTurn).params = u.params := rfl
@[simp] theorem Peripheral.lineTurn_phase : (u.lineTurn).phase = u.phase := rfl
@[simp] theorem Peripheral.lineTurn_x : (u.lineTurn).x = u.x := rfl
@[simp] theorem Peripheral.lineTurn_cache : (u.lineTurn).cache = u.cache := rfl
@[simp] theorem Peripheral.lineTurn_uart : (u.lineTurn).uart = u.uart.lineActs (u.line.turn u.uart).1 := rfl
@[simp] theorem Peripheral.lineTurn_buffer : (u.lineTurn).buffer = u.buffer := rfl
@[simp] theorem Peripheral.lineTurn_port : (u.lineTurn).port = u.port := rfl
@[simp] theorem Peripheral.lineTurn_line : (u.lineTurn).line = (u.line.turn u.uart).2 := rfl
@[simp] theorem Peripheral.lineTurn_trace : (u.lineTurn).trace = u.trace := rfl
@[simp] theorem Peripheral.lineTurn_responses : (u.lineTurn).responses = u.responses := rfl
@[simp] theorem Peripheral.lineTurn_freeCount : (u.lineTurn).freeCount = u.freeCount := rfl

@[simp] theorem Peripheral.accept_params (c : HostCommand) (rest : List HostCommand) : (u.accept c rest).params = u.params := rfl
@[simp] theorem Peripheral.accept_phase (c : HostCommand) (rest : List HostCommand) : (u.accept c rest).phase = u.phase := rfl
@[simp] theorem Peripheral.accept_x (c : HostCommand) (rest : List HostCommand) : (u.accept c rest).x = { u.x with cmd := c.word } := rfl
@[simp] theorem Peripheral.accept_cache (c : HostCommand) (rest : List HostCommand) : (u.accept c rest).cache = u.cache := rfl
@[simp] theorem Peripheral.accept_uart (c : HostCommand) (rest : List HostCommand) : (u.accept c rest).uart = u.uart := rfl
@[simp] theorem Peripheral.accept_buffer (c : HostCommand) (rest : List HostCommand) : (u.accept c rest).buffer = (match c.buffer with | some bytes => Memory.ofBytes bytes | none => u.buffer) := rfl
@[simp] theorem Peripheral.accept_port (c : HostCommand) (rest : List HostCommand) : (u.accept c rest).port = rest := rfl
@[simp] theorem Peripheral.accept_line (c : HostCommand) (rest : List HostCommand) : (u.accept c rest).line = u.line := rfl
@[simp] theorem Peripheral.accept_trace (c : HostCommand) (rest : List HostCommand) : (u.accept c rest).trace = u.trace := rfl
@[simp] theorem Peripheral.accept_responses (c : HostCommand) (rest : List HostCommand) : (u.accept c rest).responses = u.responses := rfl
@[simp] theorem Peripheral.accept_freeCount (c : HostCommand) (rest : List HostCommand) : (u.accept c rest).freeCount = u.freeCount := rfl

end PeripheralUpdates

section UartUpdates

variable (u : Uart)

@[simp] theorem Uart.sawCtrlA_txc : (u.sawCtrlA).txc = u.txc := rfl
@[simp] theorem Uart.sawCtrlA_bempty : (u.sawCtrlA).bempty = u.bempty := rfl
@[simp] theorem Uart.sawCtrlA_ferr : (u.sawCtrlA).ferr = u.ferr := rfl
@[simp] theorem Uart.sawCtrlA_ovr : (u.sawCtrlA).ovr = u.ovr := rfl
@[simp] theorem Uart.sawCtrlA_perr : (u.sawCtrlA).perr = u.perr := rfl
@[simp] theorem Uart.sawCtrlA_u2x : (u.sawCtrlA).u2x = u.u2x := rfl
@[simp] theorem Uart.sawCtrlA_mpcm : (u.sawCtrlA).mpcm = u.mpcm := rfl
@[simp] theorem Uart.sawCtrlA_ctrlB : (u.sawCtrlA).ctrlB = u.ctrlB := rfl
@[simp] theorem Uart.sawCtrlA_ctrlC : (u.sawCtrlA).ctrlC = u.ctrlC := rfl
@[simp] theorem Uart.sawCtrlA_baud : (u.sawCtrlA).baud = u.baud := rfl
@[simp] theorem Uart.sawCtrlA_waiting : (u.sawCtrlA).waiting = u.waiting := rfl
@[simp] theorem Uart.sawCtrlA_txPath : (u.sawCtrlA).txPath = u.txPath := rfl
@[simp] theorem Uart.sawCtrlA_emptySeen : (u.sawCtrlA).emptySeen = u.bempty := rfl
@[simp] theorem Uart.sawCtrlA_ctrlA : (u.sawCtrlA).ctrlA = u.ctrlA := rfl
@[simp] theorem Uart.sawCtrlA_rxen : (u.sawCtrlA).rxen = u.rxen := rfl
@[simp] theorem Uart.sawCtrlA_txen : (u.sawCtrlA).txen = u.txen := rfl


@[simp] theorem Uart.writeCtrlA_txc (v : Byte) : (u.writeCtrlA v).txc = (if bit v 6 then false else u.txc) := rfl
@[simp] theorem Uart.writeCtrlA_bempty (v : Byte) : (u.writeCtrlA v).bempty = u.bempty := rfl
@[simp] theorem Uart.writeCtrlA_ferr (v : Byte) : (u.writeCtrlA v).ferr = u.ferr := rfl
@[simp] theorem Uart.writeCtrlA_ovr (v : Byte) : (u.writeCtrlA v).ovr = u.ovr := rfl
@[simp] theorem Uart.writeCtrlA_perr (v : Byte) : (u.writeCtrlA v).perr = u.perr := rfl
@[simp] theorem Uart.writeCtrlA_u2x (v : Byte) : (u.writeCtrlA v).u2x = bit v 1 := rfl
@[simp] theorem Uart.writeCtrlA_mpcm (v : Byte) : (u.writeCtrlA v).mpcm = bit v 0 := rfl
@[simp] theorem Uart.writeCtrlA_ctrlB (v : Byte) : (u.writeCtrlA v).ctrlB = u.ctrlB := rfl
@[simp] theorem Uart.writeCtrlA_ctrlC (v : Byte) : (u.writeCtrlA v).ctrlC = u.ctrlC := rfl
@[simp] theorem Uart.writeCtrlA_baud (v : Byte) : (u.writeCtrlA v).baud = u.baud := rfl
@[simp] theorem Uart.writeCtrlA_waiting (v : Byte) : (u.writeCtrlA v).waiting = u.waiting := rfl
@[simp] theorem Uart.writeCtrlA_txPath (v : Byte) : (u.writeCtrlA v).txPath = u.txPath := rfl
@[simp] theorem Uart.writeCtrlA_emptySeen (v : Byte) : (u.writeCtrlA v).emptySeen = u.emptySeen := rfl

@[simp] theorem Uart.discardReceive_txc : (u.discardReceive).txc = u.txc := rfl
@[simp] theorem Uart.discardReceive_bempty : (u.discardReceive).bempty = u.bempty := rfl
@[simp] theorem Uart.discardReceive_ferr : (u.discardReceive).ferr = false := rfl
@[simp] theorem Uart.discardReceive_ovr : (u.discardReceive).ovr = false := rfl
@[simp] theorem Uart.discardReceive_perr : (u.discardReceive).perr = false := rfl
@[simp] theorem Uart.discardReceive_u2x : (u.discardReceive).u2x = u.u2x := rfl
@[simp] theorem Uart.discardReceive_mpcm : (u.discardReceive).mpcm = u.mpcm := rfl
@[simp] theorem Uart.discardReceive_ctrlB : (u.discardReceive).ctrlB = u.ctrlB := rfl
@[simp] theorem Uart.discardReceive_ctrlC : (u.discardReceive).ctrlC = u.ctrlC := rfl
@[simp] theorem Uart.discardReceive_baud : (u.discardReceive).baud = u.baud := rfl
@[simp] theorem Uart.discardReceive_waiting : (u.discardReceive).waiting = none := rfl
@[simp] theorem Uart.discardReceive_txPath : (u.discardReceive).txPath = u.txPath := rfl
@[simp] theorem Uart.discardReceive_emptySeen : (u.discardReceive).emptySeen = u.emptySeen := rfl

@[simp] theorem Uart.writeCtrlC_txc (v : Byte) : (u.writeCtrlC v).txc = u.txc := rfl
@[simp] theorem Uart.writeCtrlC_bempty (v : Byte) : (u.writeCtrlC v).bempty = u.bempty := rfl
@[simp] theorem Uart.writeCtrlC_ferr (v : Byte) : (u.writeCtrlC v).ferr = u.ferr := rfl
@[simp] theorem Uart.writeCtrlC_ovr (v : Byte) : (u.writeCtrlC v).ovr = u.ovr := rfl
@[simp] theorem Uart.writeCtrlC_perr (v : Byte) : (u.writeCtrlC v).perr = u.perr := rfl
@[simp] theorem Uart.writeCtrlC_u2x (v : Byte) : (u.writeCtrlC v).u2x = u.u2x := rfl
@[simp] theorem Uart.writeCtrlC_mpcm (v : Byte) : (u.writeCtrlC v).mpcm = u.mpcm := rfl
@[simp] theorem Uart.writeCtrlC_ctrlB (v : Byte) : (u.writeCtrlC v).ctrlB = u.ctrlB := rfl
@[simp] theorem Uart.writeCtrlC_ctrlC (v : Byte) : (u.writeCtrlC v).ctrlC = v := rfl
@[simp] theorem Uart.writeCtrlC_baud (v : Byte) : (u.writeCtrlC v).baud = u.baud := rfl
@[simp] theorem Uart.writeCtrlC_waiting (v : Byte) : (u.writeCtrlC v).waiting = u.waiting := rfl
@[simp] theorem Uart.writeCtrlC_txPath (v : Byte) : (u.writeCtrlC v).txPath = u.txPath := rfl
@[simp] theorem Uart.writeCtrlC_emptySeen (v : Byte) : (u.writeCtrlC v).emptySeen = u.emptySeen := rfl

@[simp] theorem Uart.writeBaud_txc (v : BitVec 16) : (u.writeBaud v).txc = u.txc := rfl
@[simp] theorem Uart.writeBaud_bempty (v : BitVec 16) : (u.writeBaud v).bempty = u.bempty := rfl
@[simp] theorem Uart.writeBaud_ferr (v : BitVec 16) : (u.writeBaud v).ferr = u.ferr := rfl
@[simp] theorem Uart.writeBaud_ovr (v : BitVec 16) : (u.writeBaud v).ovr = u.ovr := rfl
@[simp] theorem Uart.writeBaud_perr (v : BitVec 16) : (u.writeBaud v).perr = u.perr := rfl
@[simp] theorem Uart.writeBaud_u2x (v : BitVec 16) : (u.writeBaud v).u2x = u.u2x := rfl
@[simp] theorem Uart.writeBaud_mpcm (v : BitVec 16) : (u.writeBaud v).mpcm = u.mpcm := rfl
@[simp] theorem Uart.writeBaud_ctrlB (v : BitVec 16) : (u.writeBaud v).ctrlB = u.ctrlB := rfl
@[simp] theorem Uart.writeBaud_ctrlC (v : BitVec 16) : (u.writeBaud v).ctrlC = u.ctrlC := rfl
@[simp] theorem Uart.writeBaud_baud (v : BitVec 16) : (u.writeBaud v).baud = v.extractLsb' 0 12 := rfl
@[simp] theorem Uart.writeBaud_waiting (v : BitVec 16) : (u.writeBaud v).waiting = u.waiting := rfl
@[simp] theorem Uart.writeBaud_txPath (v : BitVec 16) : (u.writeBaud v).txPath = u.txPath := rfl
@[simp] theorem Uart.writeBaud_emptySeen (v : BitVec 16) : (u.writeBaud v).emptySeen = u.emptySeen := rfl

@[simp] theorem Uart.writeBaudLow_txc (v : Byte) : (u.writeBaudLow v).txc = u.txc := rfl
@[simp] theorem Uart.writeBaudLow_bempty (v : Byte) : (u.writeBaudLow v).bempty = u.bempty := rfl
@[simp] theorem Uart.writeBaudLow_ferr (v : Byte) : (u.writeBaudLow v).ferr = u.ferr := rfl
@[simp] theorem Uart.writeBaudLow_ovr (v : Byte) : (u.writeBaudLow v).ovr = u.ovr := rfl
@[simp] theorem Uart.writeBaudLow_perr (v : Byte) : (u.writeBaudLow v).perr = u.perr := rfl
@[simp] theorem Uart.writeBaudLow_u2x (v : Byte) : (u.writeBaudLow v).u2x = u.u2x := rfl
@[simp] theorem Uart.writeBaudLow_mpcm (v : Byte) : (u.writeBaudLow v).mpcm = u.mpcm := rfl
@[simp] theorem Uart.writeBaudLow_ctrlB (v : Byte) : (u.writeBaudLow v).ctrlB = u.ctrlB := rfl
@[simp] theorem Uart.writeBaudLow_ctrlC (v : Byte) : (u.writeBaudLow v).ctrlC = u.ctrlC := rfl
@[simp] theorem Uart.writeBaudLow_baud (v : Byte) : (u.writeBaudLow v).baud = u.baud.extractLsb' 8 4 ++ v := rfl
@[simp] theorem Uart.writeBaudLow_waiting (v : Byte) : (u.writeBaudLow v).waiting = u.waiting := rfl
@[simp] theorem Uart.writeBaudLow_txPath (v : Byte) : (u.writeBaudLow v).txPath = u.txPath := rfl
@[simp] theorem Uart.writeBaudLow_emptySeen (v : Byte) : (u.writeBaudLow v).emptySeen = u.emptySeen := rfl

@[simp] theorem Uart.writeBaudHigh_txc (v : Byte) : (u.writeBaudHigh v).txc = u.txc := rfl
@[simp] theorem Uart.writeBaudHigh_bempty (v : Byte) : (u.writeBaudHigh v).bempty = u.bempty := rfl
@[simp] theorem Uart.writeBaudHigh_ferr (v : Byte) : (u.writeBaudHigh v).ferr = u.ferr := rfl
@[simp] theorem Uart.writeBaudHigh_ovr (v : Byte) : (u.writeBaudHigh v).ovr = u.ovr := rfl
@[simp] theorem Uart.writeBaudHigh_perr (v : Byte) : (u.writeBaudHigh v).perr = u.perr := rfl
@[simp] theorem Uart.writeBaudHigh_u2x (v : Byte) : (u.writeBaudHigh v).u2x = u.u2x := rfl
@[simp] theorem Uart.writeBaudHigh_mpcm (v : Byte) : (u.writeBaudHigh v).mpcm = u.mpcm := rfl
@[simp] theorem Uart.writeBaudHigh_ctrlB (v : Byte) : (u.writeBaudHigh v).ctrlB = u.ctrlB := rfl
@[simp] theorem Uart.writeBaudHigh_ctrlC (v : Byte) : (u.writeBaudHigh v).ctrlC = u.ctrlC := rfl
@[simp] theorem Uart.writeBaudHigh_baud (v : Byte) : (u.writeBaudHigh v).baud = v.extractLsb' 0 4 ++ u.baud.extractLsb' 0 8 := rfl
@[simp] theorem Uart.writeBaudHigh_waiting (v : Byte) : (u.writeBaudHigh v).waiting = u.waiting := rfl
@[simp] theorem Uart.writeBaudHigh_txPath (v : Byte) : (u.writeBaudHigh v).txPath = u.txPath := rfl
@[simp] theorem Uart.writeBaudHigh_emptySeen (v : Byte) : (u.writeBaudHigh v).emptySeen = u.emptySeen := rfl

@[simp] theorem Uart.consume_txc : (u.consume).txc = u.txc := rfl
@[simp] theorem Uart.consume_bempty : (u.consume).bempty = u.bempty := rfl
@[simp] theorem Uart.consume_ferr : (u.consume).ferr = false := rfl
@[simp] theorem Uart.consume_ovr : (u.consume).ovr = false := rfl
@[simp] theorem Uart.consume_perr : (u.consume).perr = false := rfl
@[simp] theorem Uart.consume_u2x : (u.consume).u2x = u.u2x := rfl
@[simp] theorem Uart.consume_mpcm : (u.consume).mpcm = u.mpcm := rfl
@[simp] theorem Uart.consume_ctrlB : (u.consume).ctrlB = u.ctrlB := rfl
@[simp] theorem Uart.consume_ctrlC : (u.consume).ctrlC = u.ctrlC := rfl
@[simp] theorem Uart.consume_baud : (u.consume).baud = u.baud := rfl
@[simp] theorem Uart.consume_waiting : (u.consume).waiting = none := rfl
@[simp] theorem Uart.consume_txPath : (u.consume).txPath = u.txPath := rfl
@[simp] theorem Uart.consume_emptySeen : (u.consume).emptySeen = u.emptySeen := rfl

@[simp] theorem Uart.handOver_txc (v : Byte) : (u.handOver v).txc = u.txc := rfl
@[simp] theorem Uart.handOver_bempty (v : Byte) : (u.handOver v).bempty = false := rfl
@[simp] theorem Uart.handOver_ferr (v : Byte) : (u.handOver v).ferr = u.ferr := rfl
@[simp] theorem Uart.handOver_ovr (v : Byte) : (u.handOver v).ovr = u.ovr := rfl
@[simp] theorem Uart.handOver_perr (v : Byte) : (u.handOver v).perr = u.perr := rfl
@[simp] theorem Uart.handOver_u2x (v : Byte) : (u.handOver v).u2x = u.u2x := rfl
@[simp] theorem Uart.handOver_mpcm (v : Byte) : (u.handOver v).mpcm = u.mpcm := rfl
@[simp] theorem Uart.handOver_ctrlB (v : Byte) : (u.handOver v).ctrlB = u.ctrlB := rfl
@[simp] theorem Uart.handOver_ctrlC (v : Byte) : (u.handOver v).ctrlC = u.ctrlC := rfl
@[simp] theorem Uart.handOver_baud (v : Byte) : (u.handOver v).baud = u.baud := rfl
@[simp] theorem Uart.handOver_waiting (v : Byte) : (u.handOver v).waiting = u.waiting := rfl
@[simp] theorem Uart.handOver_txPath (v : Byte) : (u.handOver v).txPath = u.txPath ++ [v] := rfl
@[simp] theorem Uart.handOver_emptySeen (v : Byte) : (u.handOver v).emptySeen = u.emptySeen := rfl

@[simp] theorem Uart.writeCtrlB_txc (v : Byte) : (u.writeCtrlB v).txc = u.txc := by
  unfold Uart.writeCtrlB; split <;> rfl
@[simp] theorem Uart.writeCtrlB_bempty (v : Byte) : (u.writeCtrlB v).bempty = u.bempty := by
  unfold Uart.writeCtrlB; split <;> rfl
@[simp] theorem Uart.writeCtrlB_ferr (v : Byte) :
    (u.writeCtrlB v).ferr = if u.rxen && !bit v 4 then false else u.ferr := by
  unfold Uart.writeCtrlB; split <;> rfl
@[simp] theorem Uart.writeCtrlB_ovr (v : Byte) :
    (u.writeCtrlB v).ovr = if u.rxen && !bit v 4 then false else u.ovr := by
  unfold Uart.writeCtrlB; split <;> rfl
@[simp] theorem Uart.writeCtrlB_perr (v : Byte) :
    (u.writeCtrlB v).perr = if u.rxen && !bit v 4 then false else u.perr := by
  unfold Uart.writeCtrlB; split <;> rfl
@[simp] theorem Uart.writeCtrlB_u2x (v : Byte) : (u.writeCtrlB v).u2x = u.u2x := by
  unfold Uart.writeCtrlB; split <;> rfl
@[simp] theorem Uart.writeCtrlB_mpcm (v : Byte) : (u.writeCtrlB v).mpcm = u.mpcm := by
  unfold Uart.writeCtrlB; split <;> rfl
@[simp] theorem Uart.writeCtrlB_ctrlB (v : Byte) : (u.writeCtrlB v).ctrlB = v := by
  unfold Uart.writeCtrlB; split <;> rfl
@[simp] theorem Uart.writeCtrlB_ctrlC (v : Byte) : (u.writeCtrlB v).ctrlC = u.ctrlC := by
  unfold Uart.writeCtrlB; split <;> rfl
@[simp] theorem Uart.writeCtrlB_baud (v : Byte) : (u.writeCtrlB v).baud = u.baud := by
  unfold Uart.writeCtrlB; split <;> rfl
@[simp] theorem Uart.writeCtrlB_waiting (v : Byte) :
    (u.writeCtrlB v).waiting = if u.rxen && !bit v 4 then none else u.waiting := by
  unfold Uart.writeCtrlB; split <;> rfl
@[simp] theorem Uart.writeCtrlB_txPath (v : Byte) : (u.writeCtrlB v).txPath = u.txPath := by
  unfold Uart.writeCtrlB; split <;> rfl
@[simp] theorem Uart.writeCtrlB_emptySeen (v : Byte) : (u.writeCtrlB v).emptySeen = u.emptySeen := by
  unfold Uart.writeCtrlB; split <;> rfl

end UartUpdates

end Sys2Proof.Machine
end

