-- ==== Sys2Proof/Laws/Ops.lean ====
section
/-! SUPPORT. One lemma for each shared operation that says what it answers, for every peripheral; the provers cite these in
the place of unfolding the operations. -/

namespace Sys2Proof.Machine

/-! ### Passing an outcome on -/

section AndThen

variable {α β : Type} (k : α → Reply β)

@[simp] theorem Reply.next_andThen (a : α) : Reply.andThen (.next a) k = k a := rfl
@[simp] theorem Reply.fault_andThen (f : Fault) : Reply.andThen (.fault f : Reply α) k = .fault f := rfl
@[simp] theorem Reply.refused_andThen (r : Refusal) : Reply.andThen (.refused r : Reply α) k = .refused r := rfl

/-- An operation and what follows answer next exactly when both do. -/
theorem Reply.andThen_eq_next {o : Reply α} {b : β} :
    o.andThen k = .next b ↔ ∃ a, o = .next a ∧ k a = .next b := by
  cases o <;> simp [Reply.andThen]

/-- A fault comes from the operation or from what follows. -/
theorem Reply.andThen_eq_fault {o : Reply α} {f : Fault} :
    o.andThen k = .fault f ↔ o = .fault f ∨ ∃ a, o = .next a ∧ k a = .fault f := by
  cases o <;> simp [Reply.andThen]

/-- A refusal comes from the operation or from what follows. -/
theorem Reply.andThen_eq_refused {o : Reply α} {r : Refusal} :
    o.andThen k = .refused r ↔ o = .refused r ∨ ∃ a, o = .next a ∧ k a = .refused r := by
  cases o <;> simp [Reply.andThen]

end AndThen

/-! ### The register bus -/

@[simp] theorem slotAt_address (base : Nat) (r : Slot) : slotAt base (r.address base) = some r := by
  cases r <;> simp [slotAt, Slot.address, Slot.offset]

/-- Every access of a register by its own address reaches that register, or is refused for the peripheral's `BASE`. -/
theorem Peripheral.locate_address (u : Peripheral) (r : Slot) :
    u.locate (r.address u.params.base) = if u.params.wf then .next r else .refused .badRegisterBlock := by
  simp [Peripheral.locate]

section Access

variable (u : Peripheral)

theorem regRead8_eq (r : Slot) :
    regRead8 r u = if u.params.wf then u.readSlot r else .refused .badRegisterBlock := by
  simp only [regRead8, memRead8, Peripheral.locate_address]; split <;> rfl

theorem regWrite8_eq (r : Slot) (v : Byte) :
    regWrite8 r v u = if u.params.wf then u.writeSlot r v else .refused .badRegisterBlock := by
  simp only [regWrite8, memWrite8, Peripheral.locate_address]; split <;> rfl

variable {u}

/-- A read of Control A (rule R28): the value, one access in the trace, and the model's note for the line side. -/
theorem regRead8_ctrlA (h : u.params.wf = true) :
    regRead8 .ctrlA u = .next (u.uart.ctrlA, (u.setUart u.uart.sawCtrlA).emit (.r8 .ctrlA u.uart.ctrlA)) := by
  simp [regRead8_eq, h, Peripheral.readSlot]

/-- A read of Control B (rule R30). -/
theorem regRead8_ctrlB (h : u.params.wf = true) :
    regRead8 .ctrlB u = .next (u.uart.ctrlB, u.emit (.r8 .ctrlB u.uart.ctrlB)) := by
  simp [regRead8_eq, h, Peripheral.readSlot]

/-- A read of Control C (rule R32). -/
theorem regRead8_ctrlC (h : u.params.wf = true) :
    regRead8 .ctrlC u = .next (u.uart.ctrlC, u.emit (.r8 .ctrlC u.uart.ctrlC)) := by
  simp [regRead8_eq, h, Peripheral.readSlot]

/-- A read of DATA with a byte waiting (rules R35 and R42). -/
theorem regRead8_data (h : u.params.wf = true) {d : Byte} (hd : u.uart.waiting = some d) :
    regRead8 .data u = .next (d, (u.setUart u.uart.consume).emit (.r8 .data d)) := by
  simp [regRead8_eq, h, Peripheral.readSlot, hd]

/-- A write of Control A (rule R28). -/
theorem regWrite8_ctrlA (h : u.params.wf = true) (v : Byte) :
    regWrite8 .ctrlA v u = .next ((u.setUart (u.uart.writeCtrlA v)).emit (.w8 .ctrlA v)) := by
  simp [regWrite8_eq, h, Peripheral.writeSlot]

/-- A write of Control B (rules R30 and R43). -/
theorem regWrite8_ctrlB (h : u.params.wf = true) (v : Byte) :
    regWrite8 .ctrlB v u = .next ((u.setUart (u.uart.writeCtrlB v)).emit (.w8 .ctrlB v)) := by
  simp [regWrite8_eq, h, Peripheral.writeSlot]

/-- A write of Control C (rule R32). -/
theorem regWrite8_ctrlC (h : u.params.wf = true) (v : Byte) :
    regWrite8 .ctrlC v u = .next ((u.setUart (u.uart.writeCtrlC v)).emit (.w8 .ctrlC v)) := by
  simp [regWrite8_eq, h, Peripheral.writeSlot]

/-- A write of DATA with the buffer empty (rule R35). -/
theorem regWrite8_data (h : u.params.wf = true) (hb : u.uart.bempty = true) (v : Byte) :
    regWrite8 .data v u = .next ((u.setUart (u.uart.handOver v)).emit (.w8 .data v)) := by
  simp [regWrite8_eq, h, Peripheral.writeSlot, hb]

/-- A 16-bit read of BAUD (rule R34). -/
theorem regRead16_eq (h : u.params.wf = true) :
    regRead16 u = .next (Config.baudUnspecified u.freeCount ++ u.uart.baud,
      (u.useFree).emit (.r16 (Config.baudUnspecified u.freeCount ++ u.uart.baud))) := by
  simp [regRead16, memRead16, Peripheral.locate_address, h]

/-- A 16-bit write of BAUD (rule R34). -/
theorem regWrite16_eq (h : u.params.wf = true) (v : BitVec 16) :
    regWrite16 v u = .next ((u.setUart (u.uart.writeBaud v)).emit (.w16 v)) := by
  simp [regWrite16, memWrite16, Peripheral.locate_address, h]

/-- A byte read of the low half of BAUD (rule R52). -/
theorem regRead8_baudLow (h : u.params.wf = true) :
    regRead8 .baudLow u = .next (u.uart.baud.extractLsb' 0 8, u.emit (.r8 .baudLow (u.uart.baud.extractLsb' 0 8))) := by
  simp [regRead8_eq, h, Peripheral.readSlot]

/-- A byte read of the high half of BAUD, its upper four bits free (rules R34 and R52). -/
theorem regRead8_baudHigh (h : u.params.wf = true) :
    regRead8 .baudHigh u = .next (Config.baudUnspecified u.freeCount ++ u.uart.baud.extractLsb' 8 4,
      (u.useFree).emit (.r8 .baudHigh (Config.baudUnspecified u.freeCount ++ u.uart.baud.extractLsb' 8 4))) := by
  simp [regRead8_eq, h, Peripheral.readSlot]

/-- A byte write of the low half of BAUD (rule R52). -/
theorem regWrite8_baudLow (h : u.params.wf = true) (v : Byte) :
    regWrite8 .baudLow v u = .next ((u.setUart (u.uart.writeBaudLow v)).emit (.w8 .baudLow v)) := by
  simp [regWrite8_eq, h, Peripheral.writeSlot]

/-- A byte write of the high half of BAUD (rule R52). -/
theorem regWrite8_baudHigh (h : u.params.wf = true) (v : Byte) :
    regWrite8 .baudHigh v u = .next ((u.setUart (u.uart.writeBaudHigh v)).emit (.w8 .baudHigh v)) := by
  simp [regWrite8_eq, h, Peripheral.writeSlot]

end Access

/-! ### Everything an access can do: if it answers next, then ... -/

section Inversion

variable {u u' : Peripheral}

/-- A register read that answers next changes nothing but the trace, the count of free values, for DATA the receive path, and
for Control A the model's note for the line side. -/
theorem regRead8_next {r : Slot} {v : Byte} (h : regRead8 r u = .next (v, u')) :
    u.params.wf = true ∧ u'.trace = u.trace ++ [.r8 r v] ∧
      u'.uart = (if r = .data then u.uart.consume else if r = .ctrlA then u.uart.sawCtrlA else u.uart) ∧
      (r = .data → u.uart.waiting = some v) ∧
      u' = { u with trace := u'.trace, uart := u'.uart, freeCount := u'.freeCount } := by
  rw [regRead8_eq] at h
  split at h
  · rename_i hw
    refine ⟨hw, ?_⟩
    cases r <;> simp only [Peripheral.readSlot] at h
    case data =>
      split at h
      · rename_i d hd
        cases h; exact ⟨rfl, rfl, fun _ => hd, rfl⟩
      · cases h
    all_goals cases h; exact ⟨rfl, rfl, by simp, rfl⟩
  · cases h

/-- A register write that answers next changes nothing but the trace and the UART. -/
theorem regWrite8_next {r : Slot} {v : Byte} (h : regWrite8 r v u = .next u') :
    u.params.wf = true ∧ u'.trace = u.trace ++ [.w8 r v] ∧ (r = .data → u.uart.bempty = true) ∧
      u' = { u with trace := u'.trace, uart := u'.uart } := by
  rw [regWrite8_eq] at h
  split at h
  · rename_i hw
    refine ⟨hw, ?_⟩
    cases r <;> simp only [Peripheral.writeSlot] at h
    case data =>
      split at h
      · rename_i hb
        cases h; exact ⟨rfl, fun _ => hb, rfl⟩
      · cases h
    all_goals cases h; exact ⟨rfl, by simp, rfl⟩
  · cases h

/-- A buffer read that answers next: the index is in the buffer and nothing but the trace changes. -/
theorem bufRead_next {why : Refusal} {i : Len} {v : Byte} (h : bufRead why i u = .next (v, u')) :
    Memory.read u.buffer i.toNat = some v ∧ u' = u.emit (.br i v) := by
  unfold bufRead at h
  split at h
  · rename_i w hw; cases h; exact ⟨hw, rfl⟩
  · cases h

/-- A buffer write that answers next: the index is in the buffer, and only that index and the trace change. -/
theorem bufWrite_next {i : Len} {v : Byte} (h : bufWrite i v u = .next u') :
    (Memory.read u.buffer i.toNat).isSome = true ∧
      u' = (u.setBuffer (Memory.write u.buffer i.toNat v)).emit (.bw i v) := by
  unfold bufWrite at h
  split at h
  · rename_i w hw; cases h; exact ⟨by simp [hw], rfl⟩
  · cases h

/-- A buffer read at an index the buffer has. -/
theorem bufRead_eq {i : Len} {v : Byte} (h : Memory.read u.buffer i.toNat = some v) (why : Refusal) :
    bufRead why i u = .next (v, u.emit (.br i v)) := by simp [bufRead, h]

/-- A buffer write at an index the buffer has. -/
theorem bufWrite_eq {i : Len} (h : (Memory.read u.buffer i.toNat).isSome = true) (v : Byte) :
    bufWrite i v u = .next ((u.setBuffer (Memory.write u.buffer i.toNat v)).emit (.bw i v)) := by
  obtain ⟨w, hw⟩ := Option.isSome_iff_exists.1 h
  simp [bufWrite, hw]

end Inversion

/-! ### The machine around one peripheral -/

/-- What a meaning at the machine's level answers: what it answers for the selected peripheral, the others as they were. -/
theorem State.onSelf_eq_next {s t : State} {f : Peripheral → Reply Peripheral} :
    s.onSelf f = .next t ↔ ∃ u, f s.self = .next u ∧ t = { s with self := u } := by
  simp only [State.onSelf, Reply.andThen_eq_next]
  constructor
  · rintro ⟨u, hu, h⟩; cases h; exact ⟨u, hu, rfl⟩
  · rintro ⟨u, hu, rfl⟩; exact ⟨u, hu, rfl⟩

@[simp] theorem State.onSelf_of_next {s : State} {f : Peripheral → Reply Peripheral} {u : Peripheral}
    (h : f s.self = .next u) : s.onSelf f = .next { s with self := u } := by
  simp [State.onSelf, h]

end Sys2Proof.Machine
end

