-- ==== Sys2Proof/Laws/Bodies.lean ====
section
/-! SUPPORT. One lemma for each shared step of the command families (gates, polls, bodies): what it answers when the access
can be made, under hypotheses on the peripheral alone. -/

namespace Sys2Proof.Machine

variable {u : Peripheral}

/-- The gate of the cached variant makes no access (rules R100 and R101). -/
theorem acceptGated_cached (h : u.params.cached = true) (d : Direction) (fail : Response)
    (start : Peripheral → Peripheral) :
    acceptGated d fail start u = .next (openGate (d.inCache u.cache) fail start u) := by
  simp [acceptGated, h]

/-- The read-back variant goes to `GATE_B` (rules R100 and R101). -/
theorem acceptGated_readBack (h : u.params.cached = false) (d : Direction) (fail : Response)
    (start : Peripheral → Peripheral) :
    acceptGated d fail start u = .next (u.goto .gateB) := by
  simp [acceptGated, h]

/-- The gate of the read-back variant: one read of Control B (rules R100 and R101). -/
theorem gateStep_eq (h : u.params.wf = true) (d : Direction) (fail : Response) (start : Peripheral → Peripheral) :
    gateStep d fail start u = .next (openGate (d.inCtrlB u.uart.ctrlB) fail start
      ((u.emit (.r8 .ctrlB u.uart.ctrlB)).setTmp (u.uart.ctrlB.setWidth 16))) := by
  simp [gateStep, regRead8_ctrlB h]

/-- One iteration of a poll (rule R102): one read of Control A; on to the next phase when the flag is 1, else again. -/
theorem pollStep_eq (h : u.params.wf = true) (ready : Byte → Bool) (found : Phase) :
    pollStep ready found u = .next
      (let read := ((u.setUart u.uart.sawCtrlA).emit (.r8 .ctrlA u.uart.ctrlA)).setTmp (u.uart.ctrlA.setWidth 16)
       if ready u.uart.ctrlA then read.goto found else read) := by
  simp [pollStep, regRead8_ctrlA h]

/-- The transmit body's write of DATA (rule R103). -/
theorem txDataStep_eq (h : u.params.wf = true) (hb : u.uart.bempty = true) :
    txDataStep u = .next (((u.setUart (u.uart.handOver u.x.dbyte)).emit (.w8 .data u.x.dbyte)).setX
      { u.x with err := aggregate u.x.err ErrorMask.none }) := by
  simp [txDataStep, regWrite8_data h hb]

/-- The receive body's capture of the error flags (rule R104). -/
theorem rxErrStep_eq (h : u.params.wf = true) :
    rxErrStep u = .next ((((u.setUart u.uart.sawCtrlA).emit (.r8 .ctrlA u.uart.ctrlA)).setX
      { u.x with tmp := u.uart.ctrlA.setWidth 16, ebyte := decErr u.uart.ctrlA }).goto .rxData) := by
  simp [rxErrStep, regRead8_ctrlA h]

/-- The receive body's read of DATA (rule R104). -/
theorem rxDataStep_eq (h : u.params.wf = true) {d : Byte} (hd : u.uart.waiting = some d) :
    rxDataStep u = .next (((u.setUart u.uart.consume).emit (.r8 .data d)).setX
      { u.x with tmp := d.setWidth 16, dbyte := d }) := by
  simp [rxDataStep, regRead8_data h hd]

/-- The next byte to send, from the buffer (rules R110 and R113). -/
theorem txnBufStep_eq {v : Byte} (h : Memory.read u.buffer u.x.cnt.toNat = some v) (why : Refusal) :
    txnBufStep why u = .next ((u.emit (.br u.x.cnt v)).setX { u.x with dbyte := v }) := by
  simp [txnBufStep, bufRead_eq h]

/-- The received byte to the buffer (rules R111 and R112). -/
theorem rxnBufStep_eq (h : (Memory.read u.buffer u.x.cnt.toNat).isSome = true) :
    rxnBufStep u = .next ((((u.setBuffer (Memory.write u.buffer u.x.cnt.toNat u.x.dbyte)).emit
      (.bw u.x.cnt u.x.dbyte)).setX
        { u.x with cnt := u.x.cnt + 1, err := aggregate u.x.err u.x.ebyte })) := by
  simp [rxnBufStep, bufWrite_eq h]

/-- The end of the read-back with a valid Configuration (rules R90 and R96). -/
theorem readBackEnd_valid {d : BitVec 16} {c : Configuration}
    (h : Configuration.unpack (cfgFromBaud u.x.cfg d) = some c) :
    readBackEnd d u = .next ((u.setX { u.x with tmp := d, cfg := cfgFromBaud u.x.cfg d }).complete
      (Response.ofConfig ErrorMask.none c.pack)) := by
  simp [readBackEnd, h]

/-- The end of the read-back with a parity pattern 1 (rule R90, log entry 17). -/
theorem readBackEnd_invalid {d : BitVec 16} (h : Configuration.unpack (cfgFromBaud u.x.cfg d) = none) :
    readBackEnd d u = .fault .parityNotValid := by
  simp [readBackEnd, h]

/-! ### Flags and masks -/

theorem ctrlAByte_bits (drdy txc bempty ferr ovr perr u2x mpcm : Bool) :
    let a := ctrlAByte drdy txc bempty ferr ovr perr u2x mpcm
    bit a 7 = drdy ∧ bit a 6 = txc ∧ bit a 5 = bempty ∧ bit a 4 = ferr ∧ bit a 3 = ovr ∧ bit a 2 = perr ∧
      bit a 1 = u2x ∧ bit a 0 = mpcm := by
  revert drdy txc bempty ferr ovr perr u2x mpcm
  decide

/-- The poll's data-ready flag is "a byte waits" (rule R27). -/
@[simp] theorem dataReady_ctrlA (v : Uart) : dataReady v.ctrlA = v.waiting.isSome :=
  (ctrlAByte_bits _ _ _ _ _ _ _ _).1

/-- The poll's buffer-empty flag (rule R27). -/
@[simp] theorem bufferIsEmpty_ctrlA (v : Uart) : bufferIsEmpty v.ctrlA = v.bempty :=
  (ctrlAByte_bits _ _ _ _ _ _ _ _).2.2.1

/-- The transmit body's `NONE` changes no aggregated mask (rule R103). -/
@[simp] theorem aggregate_none (err : Byte) : aggregate err ErrorMask.none = err := by
  simp [aggregate, ErrorMask.none]

@[simp] theorem none_aggregate (e : Byte) : aggregate ErrorMask.none e = e := by
  simp [aggregate, ErrorMask.none]

end Sys2Proof.Machine
end

