-- ==== Sys2Proof/Laws/Line.lean ====
section
/-! SUPPORT. Everything the line side can do (rules R40 to R43), once for an action and once for a turn. -/

namespace Sys2Proof.Machine

/-- No action of the line side changes a stored register. -/
theorem Uart.lineAct_frame (u : Uart) (a : LineAction) :
    (u.lineAct a).ctrlB = u.ctrlB ∧ (u.lineAct a).ctrlC = u.ctrlC ∧ (u.lineAct a).baud = u.baud ∧
      (u.lineAct a).u2x = u.u2x ∧ (u.lineAct a).mpcm = u.mpcm := by
  cases a with
  | bufferEmpty value => cases value <;> simp only [Uart.lineAct] <;> first | (split <;> simp) | simp
  | deliver => simp only [Uart.lineAct]; split <;> simp
  | presentErrors => simp [Uart.lineAct]
  | transmitComplete => simp [Uart.lineAct]
  | transmitNotComplete => simp [Uart.lineAct]
  | transmitDropped => simp [Uart.lineAct]

/-- No action of the line side takes a waiting byte away (rule R60). -/
theorem Uart.lineAct_waiting {u : Uart} (a : LineAction) (h : u.waiting.isSome = true) :
    (u.lineAct a).waiting.isSome = true := by
  cases a with
  | bufferEmpty value => cases value <;> simp only [Uart.lineAct] <;> first | (split <;> exact h) | exact h
  | deliver => simp only [Uart.lineAct]; split <;> simp [h]
  | presentErrors => exact h
  | transmitComplete => exact h
  | transmitNotComplete => exact h
  | transmitDropped => exact h

/-- With TXEN 1, no action of the line side takes back a BEMPTY that was read as 1 (rule R60, log entry 7). -/
theorem Uart.lineAct_empty {u : Uart} (a : LineAction) (ht : u.txen = true)
    (h : u.bempty = true ∧ u.emptySeen = true) : (u.lineAct a).bempty = true ∧ (u.lineAct a).emptySeen = true := by
  cases a with
  | bufferEmpty value => cases value <;> simp [Uart.lineAct, ht, h]
  | deliver => simp only [Uart.lineAct]; split <;> exact h
  | presentErrors => exact h
  | transmitComplete => exact h
  | transmitNotComplete => exact h
  | transmitDropped => exact h

/-- No turn of the line side changes a stored register. -/
theorem Uart.lineActs_frame (u : Uart) (as : List LineAction) :
    (u.lineActs as).ctrlB = u.ctrlB ∧ (u.lineActs as).ctrlC = u.ctrlC ∧ (u.lineActs as).baud = u.baud ∧
      (u.lineActs as).u2x = u.u2x ∧ (u.lineActs as).mpcm = u.mpcm := by
  induction as generalizing u with
  | nil => simp [Uart.lineActs]
  | cons a as ih =>
    have h := Uart.lineAct_frame u a
    have h' := ih (u.lineAct a)
    simp only [Uart.lineActs]
    exact ⟨h'.1.trans h.1, h'.2.1.trans h.2.1, h'.2.2.1.trans h.2.2.1, h'.2.2.2.1.trans h.2.2.2.1,
      h'.2.2.2.2.trans h.2.2.2.2⟩

@[simp] theorem Uart.lineActs_ctrlB (u : Uart) (as : List LineAction) : (u.lineActs as).ctrlB = u.ctrlB :=
  (Uart.lineActs_frame u as).1
@[simp] theorem Uart.lineActs_ctrlC (u : Uart) (as : List LineAction) : (u.lineActs as).ctrlC = u.ctrlC :=
  (Uart.lineActs_frame u as).2.1
@[simp] theorem Uart.lineActs_baud (u : Uart) (as : List LineAction) : (u.lineActs as).baud = u.baud :=
  (Uart.lineActs_frame u as).2.2.1
@[simp] theorem Uart.lineActs_u2x (u : Uart) (as : List LineAction) : (u.lineActs as).u2x = u.u2x :=
  (Uart.lineActs_frame u as).2.2.2.1
@[simp] theorem Uart.lineActs_mpcm (u : Uart) (as : List LineAction) : (u.lineActs as).mpcm = u.mpcm :=
  (Uart.lineActs_frame u as).2.2.2.2
@[simp] theorem Uart.lineActs_rxen (u : Uart) (as : List LineAction) : (u.lineActs as).rxen = u.rxen := by
  simp [Uart.rxen]
@[simp] theorem Uart.lineActs_txen (u : Uart) (as : List LineAction) : (u.lineActs as).txen = u.txen := by
  simp [Uart.txen]
@[simp] theorem Uart.lineActs_nil (u : Uart) : u.lineActs [] = u := rfl
@[simp] theorem Uart.lineActs_cons (u : Uart) (a : LineAction) (as : List LineAction) :
    u.lineActs (a :: as) = (u.lineAct a).lineActs as := rfl

/-- No turn of the line side takes a waiting byte away (rule R60). -/
theorem Uart.lineActs_waiting {u : Uart} (as : List LineAction) (h : u.waiting.isSome = true) :
    (u.lineActs as).waiting.isSome = true := by
  induction as generalizing u with
  | nil => exact h
  | cons a as ih => exact ih (Uart.lineAct_waiting a h)

/-- With TXEN 1, no turn of the line side takes back a BEMPTY that was read as 1 (rule R60, log entry 7). -/
theorem Uart.lineActs_empty {u : Uart} (as : List LineAction) (ht : u.txen = true)
    (h : u.bempty = true ∧ u.emptySeen = true) : (u.lineActs as).bempty = true ∧ (u.lineActs as).emptySeen = true := by
  induction as generalizing u with
  | nil => exact h
  | cons a as ih =>
    refine ih ?_ (Uart.lineAct_empty a ht h)
    rw [Uart.txen, (Uart.lineAct_frame u a).1]; exact ht

/-- `rx_stream` with a byte waiting, and without one (log entry 10). -/
theorem Uart.rxStream_waiting {u : Uart} {d : Byte} (h : u.waiting = some d) (held : List RxByte) :
    u.rxStream held = ⟨d, u.ferr, u.ovr, u.perr⟩ :: held := by simp [Uart.rxStream, h]
theorem Uart.rxStream_none {u : Uart} (h : u.waiting = none) (held : List RxByte) : u.rxStream held = held := by
  simp [Uart.rxStream, h]

/-- With its script used up the line side does nothing. -/
@[simp] theorem LineSide.turn_quiet (u : Uart) : LineSide.turn (.script []) u = ([], .script []) := rfl

/-- A peripheral whose line side has nothing to do is unchanged by its turn. -/
theorem Peripheral.lineTurn_quiet {u : Peripheral} (h : u.line = .script []) : u.lineTurn = u := by
  obtain ⟨_, _, _, _, _, _, _, _, _, _, _⟩ := u
  cases h; rfl

/-- With no turn given and a line side that does nothing, a state is prepared as it stands. -/
theorem State.prepare_quiet {s : State} (ht : s.turns = []) (hl : s.self.line = .script []) : s.prepare = s := by
  obtain ⟨_, _, _⟩ := s
  cases ht
  simp only [State.prepare, State.nextTurn, State.lineTurn]
  simp only at hl
  rw [Peripheral.lineTurn_quiet hl]

end Sys2Proof.Machine
end

