-- ==== Sys2Proof/Laws/PerInstr.lean ====
section
/-! SUPPORT. A statement for every instruction as syntax: its word fits its row of spec/opcode_table.json. -/

namespace Sys2Proof.Laws.EncodingMatchesTable

/-- The column `fixed` of an instruction's row of the opcode table: its lowest fixed bit, and the value of the bits from
there to bit 31. -/
def row : Instr → Nat × Nat
  | .configure _ => (18, 1024)
  | .getconfig => (0, 536870912)
  | .geterror => (0, 805306368)
  | .putc _ => (8, 4194304)
  | .getc => (0, 1342177280)
  | .putn _ => (16, 24576)
  | .getn _ => (16, 28672)
  | .gets _ _ => (24, 128)
  | .puts => (0, 2415919104)
  | .flushrx => (0, 2684354560)

/-- The fixed bits of the word have the row's value. -/
def Statement (i : Instr) : Prop := (encode i).toNat / 2 ^ (row i).1 = (row i).2

/-- The number of a word put together from two parts. -/
theorem toNat_append {m n : Nat} (x : BitVec m) (y : BitVec n) : (x ++ y).toNat = x.toNat * 2 ^ n + y.toNat := by
  rw [BitVec.toNat_append, ← Nat.shiftLeft_add_eq_or_of_lt y.isLt, Nat.shiftLeft_eq]

theorem configure (c : Configuration) : Statement (.configure c) := by
  have h := c.pack.isLt
  simp only [Statement, row, encode, Instr.opcode, Instr.operandBits, toNat_append, BitVec.toNat_ofNat]
  omega

theorem getconfig : Statement .getconfig := by unfold Statement; decide
theorem geterror : Statement .geterror := by unfold Statement; decide

theorem putc (byte : Byte) : Statement (.putc byte) := by
  have h := byte.isLt
  simp only [Statement, row, encode, Instr.opcode, Instr.operandBits, toNat_append, BitVec.toNat_ofNat]
  omega

theorem getc : Statement .getc := by unfold Statement; decide

theorem putn (length : Len) : Statement (.putn length) := by
  have h := length.isLt
  simp only [Statement, row, encode, Instr.opcode, Instr.operandBits, toNat_append, BitVec.toNat_ofNat]
  omega

theorem getn (length : Len) : Statement (.getn length) := by
  have h := length.isLt
  simp only [Statement, row, encode, Instr.opcode, Instr.operandBits, toNat_append, BitVec.toNat_ofNat]
  omega

theorem gets (capacity : Len) (delimiter : Byte) : Statement (.gets capacity delimiter) := by
  have h := capacity.isLt
  have h' := delimiter.isLt
  simp only [Statement, row, encode, Instr.opcode, Instr.operandBits, toNat_append, BitVec.toNat_ofNat]
  omega

theorem puts : Statement .puts := by unfold Statement; decide
theorem flushrx : Statement .flushrx := by unfold Statement; decide

end Sys2Proof.Laws.EncodingMatchesTable
end

