-- ==== Sys2Proof/Tests/Slice0.lean ====
section
/-! SUPPORT. Tests of the model. Every expected value comes from the spec: the numbers S<n>, V<n>, P<n> are vectors of
spec/95_test_vectors.md. The `test_witness_...` theorems show, for every statement with hypotheses, a concrete state and
operands that meet them together. -/

namespace Sys2Proof.Tests

open Sys2Proof.Machine

/-! ### Helpers -/

/-- A next state with a property. -/
def check (o : Reply State) (f : State → Bool) : Bool :=
  match o with
  | .next t => f t
  | .fault _ => false
  | .refused _ => false

/-- A stop by this refusal. -/
def refusedAs (o : Reply State) (r : Refusal) : Bool :=
  match o with
  | .next _ => false
  | .fault _ => false
  | .refused q => q == r

/-- A stop by this fault. -/
def faultsAs (o : Reply State) (f : Fault) : Bool :=
  match o with
  | .next _ => false
  | .fault q => q == f
  | .refused _ => false

/-- What a word decodes to, as data that can be compared. -/
def decodesTo (w : CommandWord) (i : Instr) : Bool :=
  match decode w with
  | .ok j => j == i
  | .error _ => false

/-- How a word is rejected. -/
def rejectedAs (w : CommandWord) (e : Reject) : Bool :=
  match decode w with
  | .ok _ => false
  | .error q => q == e

/-- The named Configurations of 95_test_vectors.md. -/
def cA : Configuration := ⟨0x067, false, true, true, .one, .none⟩
def cB : Configuration := ⟨0xFFF, true, true, false, .two, .odd⟩
def cC : Configuration := ⟨0x010, true, false, true, .one, .even⟩

/-- The UART after `CONFIGURE cA` (V5), nothing waiting, BEMPTY read as 1. -/
def uartA : Uart :=
  { txc := false, bempty := true, ferr := false, ovr := false, perr := false, u2x := false, mpcm := false,
    ctrlB := 0x18, ctrlC := 0x06, baud := 0x067, waiting := none, txPath := [], emptySeen := true }

/-- A peripheral after `CONFIGURE cA`, cached variant. -/
def on : Peripheral := { Peripheral.atReset Config.port0 with cache := cA, uart := uartA }

/-- The same in the read-back variant. -/
def onReadBack : Peripheral := { on with params := { Config.port0 with cached := false } }

/-- The same on a bus that cannot carry 16 bits. -/
def onSplit : Peripheral := { on with params := { Config.port0 with bus := .split } }

/-- A peripheral inside a command. -/
def inside (u : Peripheral) (p : Phase) (i : Instr) : Peripheral :=
  { u with phase := p, x := { u.x with cmd := encode i } }

/-- A peripheral with a byte waiting. -/
def withByte (u : Peripheral) (d : Byte) : Peripheral := { u with uart := { u.uart with waiting := some d } }

/-- A peripheral with the loop's registers set. -/
def withLoop (u : Peripheral) (lim cnt : Len) (dbyte ebyte : Byte) : Peripheral :=
  { u with x := { u.x with lim := lim, cnt := cnt, dbyte := dbyte, ebyte := ebyte } }

/-- A peripheral with a buffer. -/
def withBuffer (u : Peripheral) (bytes : List Byte) : Peripheral := { u with buffer := Memory.ofBytes bytes }

/-- A peripheral with a command at its port. -/
def withCommand (u : Peripheral) (w : CommandWord) (bytes : List Byte) : Peripheral :=
  { u with port := [{ word := w, buffer := some bytes }] }

/-- The machine with one peripheral. -/
def one (u : Peripheral) : State := { self := u, others := [], turns := [] }

/-! ### Well-formedness (rule R112, corner case d) -/

theorem test_wf_refuses_gets_of_capacity_zero : (Instr.gets 0 0x0A).wf = false := by decide
theorem test_wf_accepts_gets_of_capacity_one : (Instr.gets 1 0x0A).wf = true := by decide
theorem test_wf_accepts_the_other_commands :
    [Instr.configure cA, .getconfig, .geterror, .putc 0, .getc, .putn 0, .getn 0, .puts, .flushrx].all Instr.wf
      = true := by decide

/-! ### Decoding: each command's word written out bit by bit from the formats of rule R68 and the opcodes of rule R69 -/

/-- Opcode 0001, ten zeros, parity 00, stop 0, tx 1, rx 1, u2x 0, divisor 000001100111. -/
theorem test_decode_configure :
    decodesTo (0b0001#4 ++ 0b0000000000#10 ++ 0b00#2 ++ 0b0#1 ++ 0b1#1 ++ 0b1#1 ++ 0b0#1 ++ 0b000001100111#12)
      (.configure cA) = true := by decide
/-- V39: opcode 0001, ten zeros, parity 11, stop 1, tx 0, rx 1, u2x 1, divisor 111111111111. -/
theorem test_decode_configure_odd :
    decodesTo (0b0001#4 ++ 0b0000000000#10 ++ 0b11#2 ++ 0b1#1 ++ 0b0#1 ++ 0b1#1 ++ 0b1#1 ++ 0b111111111111#12)
      (.configure cB) = true := by decide
theorem test_decode_getconfig : decodesTo (0b0010#4 ++ 0#28) .getconfig = true := by decide
theorem test_decode_geterror : decodesTo (0b0011#4 ++ 0#28) .geterror = true := by decide
theorem test_decode_putc : decodesTo (0b0100#4 ++ 0#20 ++ 0b01000001#8) (.putc 0x41) = true := by decide
theorem test_decode_getc : decodesTo (0b0101#4 ++ 0#28) .getc = true := by decide
theorem test_decode_putn : decodesTo (0b0110#4 ++ 0#12 ++ 0b0000000000000010#16) (.putn 2) = true := by decide
theorem test_decode_getn : decodesTo (0b0111#4 ++ 0#12 ++ 0b0000000000000101#16) (.getn 5) = true := by decide
/-- V39: opcode 1000, four zeros, delimiter 00001010, capacity 4. -/
theorem test_decode_gets :
    decodesTo (0b1000#4 ++ 0#4 ++ 0b00001010#8 ++ 0b0000000000000100#16) (.gets 4 0x0A) = true := by decide
theorem test_decode_puts : decodesTo (0b1001#4 ++ 0#28) .puts = true := by decide
theorem test_decode_flushrx : decodesTo (0b1010#4 ++ 0#28) .flushrx = true := by decide

/-- V40 and V12: the reserved words. -/
theorem test_reserved_opcodes :
    [0x00000000#32, 0xB0000000#32, 0xC0000000#32, 0xD0000000#32, 0xE0000000#32, 0xF0000000#32].all
      (fun w => rejectedAs w .reservedOpcode) = true := by decide
theorem test_reserved_bits :
    [0x20000001#32, 0x40000100#32, 0x60010000#32, 0x81000000#32, 0xA0000001#32, 0x10046067#32].all
      (fun w => rejectedAs w .mustBeZero) = true := by decide
theorem test_reserved_parity : rejectedAs 0x10016067 .reservedParity = true := by decide

/-- The words of the table of named Configurations. -/
theorem test_encode_named_configurations :
    encode (.configure cA) = 0x10006067 ∧ encode (.configure cB) = 0x1003BFFF ∧
    encode (.configure cC) = 0x10025010 := by decide

/-! ### Values (V1 to V4b) -/

theorem test_encB : encB cA = 0x18 ∧ encB cB = 0x10 ∧ encB cC = 0x08 := by decide
theorem test_encC : encC 3 cA = 0x06 ∧ encC 3 cB = 0x3E ∧ encC 3 cC = 0x26 ∧ encC 2 cA = 0x04 := by decide
theorem test_decCfg_ignores_other_bits :
    decCfg 0xFE 0xFF 0xFF 0xFFFF = some ⟨0xFFF, true, true, true, .two, .odd⟩ ∧
    decCfg 0xA0 0xE7 0xC7 0xF000 = some Configuration.startup ∧ decCfg 0x00 0x00 0x16 0x0000 = none := by decide
theorem test_decErr :
    decErr 0xA4 = 0x04 ∧ decErr 0xA8 = 0x08 ∧ decErr 0xB0 = 0x10 ∧ decErr 0xFF = 0x1C ∧ decErr 0xE3 = 0x00 := by
  decide

/-! ### One step of each command -/

/-- V5: the first access of CONFIGURE is `W8(+1,0x00)`. -/
theorem test_configure_first_write :
    check (exec (.configure cA) (one (inside on .cfgBOff (.configure cA))))
      (fun t => t.self.trace == [.w8 .ctrlB 0x00] && t.self.uart.ctrlB == 0x00 && t.self.cache == cA) = true := by
  decide
/-- V6: the last access of CONFIGURE is `W8(+1,0x10)`; after it the cache is `cB` and the status 0x00. -/
theorem test_configure_last_write :
    check (exec (.configure cB) (one (inside on .cfgBOn (.configure cB))))
      (fun t => t.self.trace == [.w8 .ctrlB 0x10] && t.self.cache == cB && t.self.phase == .idle &&
        t.self.responses == [⟨0x00, none, none, none⟩]) = true := by decide
/-- D11: on a split bus the high byte of `cB`'s divisor 0xFFF goes first, and the register then holds its four bits and the old
low byte (rule R154); the low byte is the next access. -/
theorem test_configure_split_baud :
    check (exec (.configure cB) (one (inside onSplit .cfgBaud (.configure cB))))
      (fun t => t.self.trace == [.w8 .baudHigh 0x0F] && t.self.uart.baud == 0xF67 && t.self.phase == .cfgBaudLow)
      = true ∧
    check (exec (.configure cB) (one (inside onSplit .cfgBaudLow (.configure cB))))
      (fun t => t.self.trace == [.w8 .baudLow 0xFF] && t.self.phase == .cfgBOn) = true := by decide
/-- V10: GETCONFIG straight after reset. -/
theorem test_getconfig_after_reset :
    check (exec .getconfig State.reset)
      (fun t => t.self.trace == [] && t.self.responses == [⟨0x00, none, none, some 0x00000⟩]) = true := by decide
/-- V5, read-back variant: the first read is `R8(+0)=0x20`. -/
theorem test_getconfig_first_read :
    check (exec .getconfig (one (inside onReadBack .rbA .getconfig)))
      (fun t => t.self.trace == [.r8 .ctrlA 0x20] && t.self.phase == .rbB) = true := by decide
/-- V14: Control A reads 0xB0, so GETERROR answers 0x10. -/
theorem test_geterror_frame :
    check (exec .geterror
        (one { inside on .geA .geterror with uart := { uartA with waiting := some 0x33, ferr := true } }))
      (fun t => t.self.trace == [.r8 .ctrlA 0xB0] && t.self.responses == [⟨0x10, none, none, none⟩]) = true := by decide
/-- P2, step 5: PUTC after `CONFIGURE cB` is DISABLED with an empty trace. -/
theorem test_putc_disabled :
    check (exec (.putc 0x56) (one { on with cache := cB }))
      (fun t => t.self.trace == [] && t.self.phase == .idle && t.self.responses == [⟨0x01, none, none, none⟩])
      = true := by decide
/-- V16: the second access of `PUTC 0x41` is `W8(+6,0x41)`. -/
theorem test_putc_write :
    check (exec (.putc 0x41) (one (withLoop (inside on .txData (.putc 0x41)) 0 0 0x41 0)))
      (fun t => t.self.trace == [.w8 .data 0x41] && !t.self.uart.bempty &&
        t.self.responses == [⟨0x00, none, none, none⟩]) = true := by decide
/-- V23: the capture read decides the error: Control A reads 0xA8 there. -/
theorem test_getc_capture :
    check (exec .getc (one { inside on .rxErr .getc with uart := { uartA with waiting := some 0x31, ovr := true } }))
      (fun t => t.self.trace == [.r8 .ctrlA 0xA8] && t.self.x.ebyte == 0x08 && t.self.phase == .rxData) = true := by
  decide
/-- V21: `byte = 0x5A`, `status = 0x14`, and the flags went with the byte (V15). -/
theorem test_getc_answers_byte_and_errors :
    check (exec .getc (one { inside on .rxData .getc with
          x := { Regs.atReset with ebyte := 0x14 }
          uart := { uartA with waiting := some 0x5A, ferr := true, perr := true } }))
      (fun t => t.self.responses == [⟨0x14, some 0x5A, none, none⟩] && t.self.uart.ctrlA == 0x20) = true := by decide
/-- V26: `PUTN 0` with transmit enabled. -/
theorem test_putn_zero :
    check (exec (.putn 0) (one on))
      (fun t => t.self.trace == [] && t.self.responses == [⟨0x00, none, none, none⟩]) = true := by decide
/-- V25: the fourth access of `PUTN 2` is `BR(1)=0x69`. -/
theorem test_putn_second_byte :
    check (exec (.putn 2) (one (withBuffer (withLoop (inside on .txnBuf (.putn 2)) 2 1 0x48 0) [0x48, 0x69])))
      (fun t => t.self.trace == [.br 1 0x69] && t.self.x.dbyte == 0x69 && t.self.phase == .txPoll) = true := by decide
/-- V27: `GETN 0` with receive enabled: a waiting byte stays waiting. -/
theorem test_getn_zero :
    check (exec (.getn 0) (one (withByte on 0x11)))
      (fun t => t.self.trace == [] && t.self.responses == [⟨0x00, none, some 0, none⟩] &&
        t.self.uart.waiting == some 0x11) = true := by decide
/-- S7: a FRAME error on the third byte: stored, counted, the last one. -/
theorem test_getn_stops_at_an_error :
    check (exec (.getn 5)
        (one (withBuffer (withLoop (inside on .rxnBuf (.getn 5)) 5 2 0x33 0x10) [0x11, 0x22, 0, 0, 0])))
      (fun t => t.self.trace == [.bw 2 0x33] && t.self.responses == [⟨0x10, none, some 3, none⟩] &&
        t.self.buffer == Memory.ofBytes [0x11, 0x22, 0x33, 0, 0]) = true := by decide
/-- V33: the delimiter is the zero byte: it is stored, and the terminator comes next. -/
theorem test_gets_zero_delimiter :
    check (exec (.gets 4 0x00)
        (one (withBuffer (withLoop (inside on .rxnBuf (.gets 4 0x00)) 3 1 0x00 0) [0x41, 9, 9, 9])))
      (fun t => t.self.trace == [.bw 1 0x00] && t.self.x.cnt == 2 && t.self.phase == .rxsTerm) = true := by decide
/-- V31: the terminator at index 2, `count = 2`, `status = 0x08`. -/
theorem test_gets_terminator :
    check (exec (.gets 8 0x0A)
        (one { withBuffer (withLoop (inside on .rxsTerm (.gets 8 0x0A)) 7 2 0x0A 0x08) [0x41, 0x0A, 9, 9, 9, 9, 9, 9] with
          x := { (withLoop (inside on .rxsTerm (.gets 8 0x0A)) 7 2 0x0A 0x08).x with err := 0x08 } }))
      (fun t => t.self.trace == [.bw 2 0x00] && t.self.responses == [⟨0x08, none, some 2, none⟩]) = true := by decide
/-- V36: the buffer `00`: one buffer read, nothing sent. -/
theorem test_puts_empty_string :
    check (exec .puts (one (withBuffer (inside on .txnBuf .puts) [0x00])))
      (fun t => t.self.trace == [.br 0 0x00] && t.self.responses == [⟨0x00, none, none, none⟩]) = true := by decide
/-- V35: after `4F` the next access is `BR(1)`: the index goes up by one. -/
theorem test_puts_goes_on :
    check (exec .puts (one (withLoop (inside on .txData .puts) 0 0 0x4F 0)))
      (fun t => t.self.trace == [.w8 .data 0x4F] && t.self.x.cnt == 1 && t.self.phase == .txnBuf) = true := by decide
/-- S8: Control B read as 0x3C, so the second access is `W8(+1,0x2C)`; the waiting byte goes. -/
theorem test_flushrx_off :
    check (exec .flushrx (one { inside on .flOff .flushrx with
          x := { Regs.atReset with tmp := 0x003C }
          uart := { uartA with ctrlB := 0x3C, waiting := some 0x99 } }))
      (fun t => t.self.trace == [.w8 .ctrlB 0x2C] && t.self.uart.waiting == none) = true := by decide
/-- V38: straight after reset FLUSHRX has an empty trace. -/
theorem test_flushrx_after_reset :
    check (exec .flushrx State.reset)
      (fun t => t.self.trace == [] && t.self.responses == [⟨0x00, none, none, none⟩]) = true := by decide

/-! ### The machine -/

/-- The word `CONFIGURE cA` presented after reset is accepted by the first step (rule R21). -/
theorem test_step_accepts :
    check (step (State.reset.withFetchWord 32 0x10006067))
      (fun t => t.self.phase == .cfgBOff && t.self.x.cmd == 0x10006067 && t.self.port == [] && t.self.trace == [])
      = true := by decide
/-- A reserved word is refused (V40). -/
theorem test_step_refuses_reserved :
    refusedAs (step (State.reset.withFetchWord 32 0xB0000000)) (.reservedWord .reservedOpcode) = true := by decide
/-- V34: `GETS 0, 0x0A` is refused. -/
theorem test_step_refuses_capacity_zero :
    refusedAs (step (State.reset.withFetchWord 32 0x800A0000)) .capacityZero = true := by decide
/-- Rule R44, with V20's stream: Control A reads 0xA0 in the reference environment. -/
theorem test_reference_environment :
    ({ on with line := .reference [⟨0x31, false, false, false⟩] } : Peripheral).lineTurn.uart.ctrlA = 0xA0 := by decide

/-- Rule R44: TXC reads 0 and, with no byte waiting, so do the error flags, whatever was left over. -/
theorem test_reference_environment_clears :
    ({ on with line := .reference [], uart := { uartA with txc := true, ferr := true, ovr := true, perr := true } } :
      Peripheral).lineTurn.uart.ctrlA = 0x20 := by decide
/-- Rules R40 and R60: the line side may lower BEMPTY while no read has returned it as 1, and not after that. -/
theorem test_line_lowers_bempty_unless_read :
    (({ uartA with emptySeen := false } : Uart).lineAct (.bufferEmpty false)).bempty = false ∧
    (uartA.lineAct (.bufferEmpty false)).bempty = true := by decide

/-! ### Witnesses: states and operands that meet the hypotheses of the statements -/

/-- A peripheral that breaks rule R53: an odd `BASE`. -/
def oddBase : Peripheral := { on with params := { Config.port0 with base := 0xC1 } }

/-- A peripheral with an error flag and a byte waiting. -/
def withError : Peripheral := { on with uart := { uartA with waiting := some 0x33, ferr := true } }

/-- An outcome that is a next state. -/
def goesOn (o : Reply State) : Bool := check o fun _ => true

theorem test_witness_EncodeOfDecode :
    decodesTo 0x1003BFFF (.configure cB) = true ∧ decodesTo 0x800AFFFF (.gets 0xFFFF 0x0A) = true := by decide
/-- A word under each clause, at the ends of the ranges of the opcode. -/
theorem test_witness_ReservedWordsRejected :
    [0x00000000#32, 0x0FFFFFFF#32, 0xB0000000#32, 0xFFFFFFFF#32].all (fun w => rejectedAs w .reservedOpcode) = true ∧
    [0x10040000#32, 0x18000000#32, 0x40000100#32, 0x60010000#32, 0x81000000#32, 0xA0000001#32].all
      (fun w => rejectedAs w .mustBeZero) = true ∧
    [0x10010000#32, 0x1001FFFF#32].all (fun w => rejectedAs w .reservedParity) = true ∧
    decodesTo 0x1000FFFF (.configure ⟨0xFFF, true, true, true, .two, .none⟩) = true ∧
    decodesTo 0xA0000000 .flushrx = true := by decide
theorem test_witness_PackedConfigurationRoundTrip :
    Configuration.unpack 0x3BFFF = some cB ∧ Configuration.unpack 0x10000 = none := by decide
theorem test_witness_EncodersOfEnableAndBaud :
    ({ cA with receiveEnabled := false } : Configuration).baudDivisor = cA.baudDivisor := by decide
theorem test_witness_ReadBackRoundTrip : (0xFC : Byte) &&& 0x03 = 0 ∧ (0x00 : Byte) &&& 0x03 = 0 := by decide
theorem test_witness_ErrorDecoderKeepsThreeBits :
    [Instr.getc, .getn 5, .gets 4 0x0A].all (fun i =>
      i.receives && i.wf && (inside withError .rxErr i).phase == .rxErr && (inside withError .rxErr i).params.wf) = true := by
  decide
theorem test_witness_ErrorMaskAlgebra :
    legalStatus 0x1C = true ∧ legalStatus 0x00 = true ∧ (0x1C : Byte) ≠ ErrorMask.disabled ∧
    (0x00 : Byte) ≠ ErrorMask.disabled := by decide
theorem test_witness_block_as_the_spec_asks : on.params.wf = true ∧ onReadBack.params.wf = true := by decide
/-- `BASE + 6` at the top of the address space, the last block the spec allows (rule R157). -/
theorem test_witness_block_at_the_top :
    ({ Config.port0 with base := 0xFFF8 } : Config.Params).wf = true ∧
    ({ Config.port0 with base := 0xFFFA } : Config.Params).wf = false := by decide
theorem test_witness_ControlBUnderAccess :
    bit on.uart.ctrlB 4 = true ∧ bit (0x08 : Byte) 4 = false ∧ bit (0x10 : Byte) 4 = true := by decide
theorem test_witness_DataReadConsumesTheByte :
    (withByte on 0x31).params.wf = true ∧ (withByte on 0x31).uart.waiting = some 0x31 ∧
    bit (withByte on 0x31).uart.ctrlB 4 = true := by decide
/-- Both clauses: an odd `BASE`, and the addresses next to the block's registers. -/
theorem test_witness_NoAccessOutsideTheMap :
    oddBase.params.wf = false ∧ on.params.wf = true ∧
    [0xBF, 0xC3, 0xC7, 0x10000].all (fun a =>
      a ∉ [on.params.base, on.params.base + 1, on.params.base + 2, on.params.base + 4, on.params.base + 5,
        on.params.base + 6]) = true ∧
    [0xC0, 0xC3, 0xC5, 0xC6].all (fun a => a ≠ on.params.base + 4) = true := by decide
theorem test_witness_DisabledReceiverNeverReady :
    bit ({ uartA with ctrlB := 0x08 } : Uart).ctrlB 4 = false ∧ ({ uartA with ctrlB := 0x08 } : Uart).waiting = none := by
  decide
/-- The read succeeds and returns bits 7 and 5 as 1. -/
theorem test_witness_ReadyFlagsPersist :
    memRead8 ((withByte on 0x31).params.base + 0) (withByte on 0x31)
      = .next (0xA0, { withByte on 0x31 with trace := [.r8 .ctrlA 0xA0] }) ∧
    bit (0xA0 : Byte) 7 = true ∧ bit (withByte on 0x31).uart.ctrlB 3 = true ∧ bit (0xA0 : Byte) 5 = true :=
  ⟨rfl, by decide⟩
/-- A stream held by the line side, a byte that waits already with flags, and an empty stream. -/
theorem test_witness_ReferenceEnvironmentControlA :
    (let u : Peripheral := { on with line := .reference [⟨0x5A, true, false, true⟩] }
     u.line = .reference [⟨0x5A, true, false, true⟩] ∧ u.uart.waiting = none ∧ bit u.uart.ctrlB 4 = true ∧
     u.uart.rxStream [⟨0x5A, true, false, true⟩] = ⟨0x5A, true, false, true⟩ :: []) ∧
    (let u : Peripheral := { withError with line := .reference [⟨0x5A, true, false, true⟩] }
     u.uart.waiting.isSome = true ∧ bit u.uart.ctrlB 4 = true ∧
     u.uart.rxStream [⟨0x5A, true, false, true⟩] = [⟨0x33, true, false, false⟩, ⟨0x5A, true, false, true⟩]) ∧
    bit ({ on with line := .reference [] } : Peripheral).lineTurn.uart.ctrlA 7 = false := by decide
/-- One state for each clause. -/
theorem test_witness_StepRunsTheCommand :
    (let p := (one (withCommand on 0x50000000 [])).prepare
     p.self.phase = .idle ∧ p.self.port = [⟨0x50000000, some []⟩] ∧ decodesTo 0x50000000 .getc = true) ∧
    (let p := (one (inside on .rxPoll .getc)).prepare
     p.self.phase ≠ .idle ∧ decodesTo p.self.x.cmd .getc = true) ∧
    (let p := (one on).prepare
     p.self.phase = .idle ∧ p.self.port = []) ∧
    (let p := (one (withCommand on 0xB0000000 [])).prepare
     p.self.phase = .idle ∧ p.self.port = [⟨0xB0000000, some []⟩] ∧ rejectedAs 0xB0000000 .reservedOpcode = true) ∧
    (one on).turns = [] ∧ (one on).self.line = .script [] := by decide
/-- The command goes on (a poll), and it ends (GETERROR's read). -/
theorem test_witness_PortServedOnlyInIdle :
    (one (inside on .rxPoll .getc)).prepare.self.phase ≠ .idle ∧ goesOn (step (one (inside on .rxPoll .getc))) = true ∧
    (one (inside on .geA .geterror)).prepare.self.phase ≠ .idle ∧
    check (step (one (inside on .geA .geterror))) (fun t => t.self.phase == .idle) = true := by decide
/-- A step from `IDLE`, a step with its access, and the two halves of the baud access. -/
theorem test_witness_OneAccessPerStep :
    goesOn (exec .getc (one on)) = true ∧ goesOn (exec .geterror (one (inside on .geA .geterror))) = true ∧
    [Phase.cfgBaud, .cfgBaudLow].all (fun p =>
      check (exec (.configure cA) (one (inside onSplit p (.configure cA)))) (fun t => t.self.trace.length == 1)) = true := by
  decide
theorem test_witness_PeripheralsShareNothing :
    let other : Peripheral := { onReadBack with params := { onReadBack.params with base := 0xD0 } }
    let s : State := { self := inside on .geA .geterror, others := [other], turns := [0xC0] }
    goesOn (exec .geterror s) = true ∧ goesOn (step s) = true := by decide
theorem test_witness_ParametersNeverChange : goesOn (step (one (withCommand on 0x10006067 []))) = true := by decide
/-- The writing step, and a step of each alternative of the other clause. -/
theorem test_witness_OnlyConfigureWritesTheCache :
    goesOn (exec (.configure cB) (one (inside on .cfgBOn (.configure cB)))) = true ∧ on.params.cached = true ∧
    goesOn (exec .getc (one on)) = true ∧ goesOn (exec (.configure cB) (one on)) = true ∧
    goesOn (exec (.configure cB) (one (inside onReadBack .cfgBOn (.configure cB)))) = true := by decide
theorem test_witness_WhoWritesTheControlRegisters :
    goesOn (exec .flushrx (one (inside on .flRead .flushrx))) = true ∧
    goesOn (exec .geterror (one (inside on .geA .geterror))) = true ∧
    goesOn (exec (.putc 0x41) (one (inside on .txData (.putc 0x41)))) = true ∧
    (∀ c, Instr.flushrx ≠ .configure c) ∧ Instr.geterror ≠ .flushrx := by
  refine ⟨by decide, by decide, by decide, nofun, nofun⟩
theorem test_witness_WhoChangesTheBuffer :
    goesOn (exec (.getn 2) (one (withBuffer (withLoop (inside on .rxnBuf (.getn 2)) 2 0 0x11 0) [0, 0]))) = true ∧
    goesOn (exec (.gets 2 0x0A) (one (withBuffer (withLoop (inside on .rxsTerm (.gets 2 0x0A)) 1 1 0x11 0) [0, 0])))
      = true ∧
    goesOn (exec .geterror (one (inside on .geA .geterror))) = true := by decide
theorem test_witness_ConfigureSteps :
    [Phase.idle, .cfgBOff, .cfgA, .cfgC, .cfgBaud, .cfgBaudLow, .cfgBOn].all (fun p => [on, onSplit].all fun u =>
      (inside u p (.configure cA)).phase == p && (inside u p (.configure cA)).params.wf) = true := by decide
theorem test_witness_ConfigureWritesInFixedOrder :
    [on, onSplit].all (fun u => u.phase == .idle && u.params.wf) = true := by decide
theorem test_witness_GetconfigFromTheCache : (one on).self.phase = .idle ∧ (one on).self.params.cached = true := by
  decide
/-- Both clauses: a valid Configuration, and the parity pattern 1. -/
theorem test_witness_GetconfigReadsBack :
    (one onReadBack).self.phase = .idle ∧ (one onReadBack).self.params.cached = false ∧
    (one onReadBack).self.params.wf = true ∧ onReadBack.uart.configuration = some cA ∧
    ({ uartA with ctrlC := 0x16 } : Uart).configuration = none := by decide
theorem test_witness_GeterrorReadsTheFlags :
    (one on).self.phase = .idle ∧ (one (inside on .geA .geterror)).self.phase = .geA ∧
    (one (inside on .geA .geterror)).self.params.wf = true := by decide
/-- Each gated command, in both variants, with its direction disabled. -/
theorem test_witness_ClosedGateTouchesNothing :
    [Instr.putc 0x56, .putn 2, .puts].all (fun i => i.transmits && i.wf &&
      !i.gateOpen { on with cache := cB } && !i.gateOpen { onReadBack with uart := { uartA with ctrlB := 0x10 } })
      = true ∧
    [Instr.getc, .getn 3, .gets 4 0x0A].all (fun i => i.receives && i.wf &&
      !i.gateOpen { on with cache := cC } && !i.gateOpen { onReadBack with uart := { uartA with ctrlB := 0x08 } })
      = true ∧ on.phase = .idle ∧ onReadBack.phase = .idle ∧ on.params.cached = true ∧
    onReadBack.params.cached = false ∧ onReadBack.params.wf = true := by decide
/-- Each gated command, in both variants, with its direction enabled. -/
theorem test_witness_OpenGateStarts :
    [Instr.putc 0x56, .putn 2, .puts, .getc, .getn 3, .gets 4 0x0A].all (fun i =>
      (i.transmits || i.receives) && i.wf && i.gateOpen on && i.gateOpen onReadBack &&
      i.gateOpen (inside onReadBack .gateB i) && !(inside onReadBack .gateB i).params.cached &&
      (inside onReadBack .gateB i).params.wf) = true := by decide
/-- Each poll, with the flag at 1 and at 0. -/
theorem test_witness_PollReadsControlAUntilReady :
    (Instr.putc 0x41).wf = true ∧ (Instr.putc 0x41).transmits = true ∧ Instr.getc.wf = true ∧
    Instr.getc.receives = true ∧ (inside on .txPoll (.putc 0x41)).phase = .txPoll ∧
    (inside on .rxPoll .getc).phase = .rxPoll ∧ on.params.wf = true ∧ bit uartA.ctrlA 5 = true ∧
    bit ({ uartA with bempty := false } : Uart).ctrlA 5 = false ∧ bit uartA.ctrlA 7 = false ∧
    bit (withByte on 0x31).uart.ctrlA 7 = true := by decide
/-- V19 and V22. -/
theorem test_witness_StarvedPollNeverEnds :
    (let s := one { inside on .txPoll (.putc 0x41) with uart := { uartA with bempty := false } }
     s.turns = [] ∧ s.self.line = .script [] ∧ s.self.params.wf = true ∧
     decodesTo s.self.x.cmd (.putc 0x41) = true ∧ (Instr.putc 0x41).wf = true ∧ (Instr.putc 0x41).transmits = true ∧
     s.self.phase = .txPoll ∧ s.self.uart.bempty = false) ∧
    (let s := one (inside on .rxPoll .getc)
     s.turns = [] ∧ s.self.line = .script [] ∧ s.self.params.wf = true ∧ decodesTo s.self.x.cmd .getc = true ∧
     Instr.getc.wf = true ∧ Instr.getc.receives = true ∧ s.self.phase = .rxPoll ∧ s.self.uart.waiting = none) := by
  decide
theorem test_witness_PutcTransmits :
    (one (inside on .txData (.putc 0x41))).self.params.wf = true ∧ (one on).self.uart.bempty = true ∧
    (one (inside on .txData (.putc 0x41))).self.phase = .txData ∧ (one on).self.phase = .idle ∧
    (one on).self.params.cached = true ∧ (one on).self.cache.transmitEnabled = true := by decide
theorem test_witness_GetcReceives :
    [Phase.rxErr, .rxData, .idle].all (fun p =>
      (inside withError p .getc).phase == p && (inside withError p .getc).params.wf &&
      (inside withError p .getc).uart.waiting == some 0x33 && (inside withError p .getc).params.cached &&
      (inside withError p .getc).cache.receiveEnabled) = true := by decide
theorem test_witness_PutnSteps :
    (let u := withBuffer (withLoop (inside on .txnBuf (.putn 2)) 2 1 0x48 0) [0x48, 0x69]
     u.phase = .txnBuf ∧ Memory.read u.buffer u.x.cnt.toNat = some 0x69) ∧
    (let u := withLoop (inside on .txData (.putn 2)) 2 1 0x69 0
     u.phase = .txData ∧ u.params.wf = true ∧ u.uart.bempty = true) := by decide
theorem test_witness_GetnSteps :
    (let u := inside withError .rxErr (.getn 2)
     u.phase = .rxErr ∧ u.params.wf = true) ∧
    (let u := inside withError .rxData (.getn 2)
     u.phase = .rxData ∧ u.params.wf = true ∧ u.uart.waiting = some 0x33) ∧
    (let u := withBuffer (withLoop (inside on .rxnBuf (.getn 2)) 2 1 0x33 0x10) [0, 0]
     u.phase = .rxnBuf ∧ u.params.wf = true ∧ (Memory.read u.buffer u.x.cnt.toNat).isSome = true) := by decide
theorem test_witness_GetsSteps :
    (let u := inside withError .rxErr (.gets 2 0x0A)
     u.phase = .rxErr ∧ u.params.wf = true) ∧
    (let u := inside withError .rxData (.gets 2 0x0A)
     u.phase = .rxData ∧ u.params.wf = true ∧ u.uart.waiting = some 0x33) ∧
    (let u := withBuffer (withLoop (inside on .rxnBuf (.gets 2 0x0A)) 1 0 0x33 0x10) [0, 0]
     u.phase = .rxnBuf ∧ u.params.wf = true ∧ (Memory.read u.buffer u.x.cnt.toNat).isSome = true) ∧
    (let u := withBuffer (withLoop (inside on .rxsTerm (.gets 2 0x0A)) 1 1 0x33 0x10) [0, 0]
     u.phase = .rxsTerm ∧ u.params.wf = true ∧ (Memory.read u.buffer u.x.cnt.toNat).isSome = true) ∧
    (2 : Len) ≠ 0 := by decide
theorem test_witness_PutsSteps :
    (let u := withBuffer (inside on .txnBuf .puts) [0x00]
     u.phase = .txnBuf ∧ Memory.read u.buffer u.x.cnt.toNat = some 0x00) ∧
    (let u := withLoop (inside on .txData .puts) 0 0xFFFE 0x41 0
     u.phase = .txData ∧ u.params.wf = true ∧ u.uart.bempty = true ∧ u.x.cnt ≠ 0xFFFF) := by decide
theorem test_witness_FlushrxTogglesReceiveEnable :
    [on, onReadBack].all (fun u => u.phase == .idle && u.params.wf && bit u.uart.ctrlB 4 && u.cache.receiveEnabled)
      = true := by decide
/-- Each step; the last clause but one with the stale cache of rule R117 (d). -/
theorem test_witness_FlushrxSteps :
    [Phase.idle, .flRead, .flOff, .flOn].all (fun p => (inside on p .flushrx).phase == p && on.params.wf) = true ∧
    on.cache.receiveEnabled = true ∧ bit ({ uartA with ctrlB := 0x08 } : Uart).ctrlB 4 = false := by decide
/-- One state for each clause but the one on capacity 0, which has no hypothesis. -/
theorem test_witness_StopsAreNamed :
    (let u := inside oddBase .geA .geterror
     u.params.wf = false ∧ Instr.geterror.wf = true ∧ u.phase ∈ Instr.geterror.phases u.params ∧
     u.phase ∉ [.txnBuf, .rxnBuf, .rxsTerm]) ∧
    (let p := (one (withCommand on 0xB0000000 [])).prepare
     p.self.phase = .idle ∧ p.self.port = [⟨0xB0000000, some []⟩] ∧ rejectedAs 0xB0000000 .reservedOpcode = true) ∧
    (let u := withBuffer (withLoop (inside on .txnBuf (.putn 3)) 3 2 0 0) [1, 2]
     u.phase = .txnBuf ∧ Memory.read u.buffer u.x.cnt.toNat = none) ∧
    (let u := withBuffer (withLoop (inside on .rxnBuf (.getn 3)) 3 2 0 0) [1, 2]
     u.phase = .rxnBuf ∧ Memory.read u.buffer u.x.cnt.toNat = none) ∧
    (let u := withBuffer (withLoop (inside on .rxsTerm (.gets 3 0x0A)) 2 2 0 0) [1, 2]
     u.phase = .rxsTerm ∧ Memory.read u.buffer u.x.cnt.toNat = none ∧ (3 : Len) ≠ 0) ∧
    (let u := withLoop (inside on .txData .puts) 0 0xFFFF 0x41 0
     u.phase = .txData ∧ u.params.wf = true ∧ u.uart.bempty = true ∧ u.x.cnt = 0xFFFF) ∧
    [Phase.rbBaud, .rbBaudHigh].all (fun p =>
      let u : Peripheral := { inside onReadBack p .getconfig with x := { Regs.atReset with cfg := 0x10000 } }
      u.phase == p && u.params.bus == .whole && u.params.wf && u.x.cfg.extractLsb' 16 2 == 1) = true := by decide

/-- S7's stream. -/
def s7 : List RxByte :=
  [⟨0x11, false, false, false⟩, ⟨0x22, false, false, false⟩, ⟨0x33, true, false, false⟩, ⟨0x44, false, false, false⟩,
    ⟨0x55, false, false, false⟩]

/-- The peripheral of the whole-command witnesses: a buffer attached, the reference environment with S7's stream. -/
def whole (i : Instr) (bytes : List Byte) : Peripheral :=
  { withCommand on (encode i) bytes with line := .reference s7 }

theorem test_witness_PutnSendsTheBuffer :
    let s := one (whole (.putn 2) [0x48, 0x69])
    s.turns = [] ∧ s.self.line = .reference s7 ∧ s.self.phase = .idle ∧ s.self.params.wf = true ∧
    (2 : Len).toNat ≤ [0x48, 0x69].length ∧
    s.self.port = ⟨encode (.putn 2), some [0x48, 0x69]⟩ :: [] ∧ bit s.self.uart.ctrlB 3 = true ∧
    s.self.cache.transmitEnabled = true := by decide
theorem test_witness_PutsSendsTheString :
    let s := one (whole .puts ([0x4F, 0x4B] ++ 0x00 :: []))
    s.turns = [] ∧ s.self.line = .reference s7 ∧ s.self.phase = .idle ∧ s.self.params.wf = true ∧
    s.self.port = ⟨encode .puts, some ([0x4F, 0x4B] ++ 0x00 :: [])⟩ :: [] ∧ (0x00 : Byte) ∉ [0x4F, 0x4B] ∧
    [(0x4F : Byte), 0x4B].length ≤ 0xFFFF ∧ bit s.self.uart.ctrlB 3 = true ∧ s.self.cache.transmitEnabled = true := by
  decide
/-- `GETN 5` ends at the error (S7), `GETN 2` at its length; a byte that waits already comes first. -/
theorem test_witness_GetnReceivesUntilError :
    let s := one (whole (.getn 5) [0, 0, 0, 0, 0])
    s.turns = [] ∧ s.self.phase = .idle ∧ s.self.params.wf = true ∧
    s.self.port = ⟨encode (.getn 5), some [0, 0, 0, 0, 0]⟩ :: [] ∧ (5 : Len).toNat ≤ [0, 0, 0, 0, 0].length ∧
    bit s.self.uart.ctrlB 4 = true ∧ s.self.cache.receiveEnabled = true ∧
    s.self.line = .reference s7 ∧ totalMask (takeUntilError (5 : Len).toNat (s.self.uart.rxStream s7)) = 0x10 ∧
    (takeUntilError (2 : Len).toNat (s.self.uart.rxStream s7)).length = (2 : Len).toNat ∧
    takeUntilError (5 : Len).toNat (withError.uart.rxStream s7) = [⟨0x33, true, false, false⟩] := by decide
/-- `GETS 8` ends at the delimiter 0x22, at the error, and `GETS 3` at its capacity. -/
theorem test_witness_GetsReceivesAString :
    let s := one (whole (.gets 8 0x22) [0, 0, 0, 0, 0, 0, 0, 0])
    s.turns = [] ∧ s.self.phase = .idle ∧ s.self.params.wf = true ∧
    s.self.port = ⟨encode (.gets 8 0x22), some [0, 0, 0, 0, 0, 0, 0, 0]⟩ :: [] ∧ (8 : Len) ≠ 0 ∧
    (8 : Len).toNat ≤ [0, 0, 0, 0, 0, 0, 0, 0].length ∧ bit s.self.uart.ctrlB 4 = true ∧
    s.self.cache.receiveEnabled = true ∧
    s.self.line = .reference s7 ∧ (∃ r ∈ takeString 0x22 ((8 : Len).toNat - 1) (s.self.uart.rxStream s7), r.byte = 0x22) ∧
    totalMask (takeString 0x0A ((8 : Len).toNat - 1) (s.self.uart.rxStream s7)) ≠ 0 ∧
    (takeString 0x0A ((3 : Len).toNat - 1) (s.self.uart.rxStream s7)).length = (3 : Len).toNat - 1 ∧
    takeString 0x31 ((8 : Len).toNat - 1) ((withByte on 0x31).uart.rxStream s7) = [⟨0x31, false, false, false⟩] := by
  decide
theorem test_witness_GetconfigReturnsWhatConfigureSet :
    [on, onReadBack, onSplit].all (fun u => u.phase == .idle && u.params.wf) = true := by decide

/-! ### Witnesses of the invariants -/

/-- For a peripheral in `IDLE`, whose remaining clauses are computed. -/
theorem test_witness_inv_idle (u : Peripheral) (h : u.phase = .idle) (hb : u.params.wf = true)
    (hm : Memory.wf u.buffer = true) (hd : u.uart.waiting.isSome = true → u.uart.rxen = true)
    (ht : u.params.cached = true → u.cache.transmitEnabled = true → u.uart.txen = true)
    (hr : u.params.cached = true → u.cache.receiveEnabled = true → u.uart.rxen = true)
    (hs : u.responses.all (fun r => legalStatus r.status) = true) : u.Inv where
  block := hb
  buffer := hm
  phase := .inl h
  ebyte := by rw [h]; exact fun n => absurd n (by decide)
  drdy := hd
  received := by rw [h]; exact fun n => absurd n (by decide)
  emptied := by rw [h]; exact fun n => absurd n (by decide)
  txEnabled := by rw [h]; exact fun n => absurd n (by decide)
  cacheTx := fun c _ => ht c
  cacheRx := fun c _ => hr c
  off := by rw [h]; exact fun n => absurd n (by decide)
  flush := by rw [h]; exact fun n => absurd n (by decide)
  flushOff := by rw [h]; exact fun n => absurd n (by decide)
  flushOn := by rw [h]; exact fun n => absurd n (by decide)
  readBack := by rw [h]; exact fun n => absurd n (by decide)
  responses := hs

/-- One peripheral makes a machine that meets the invariant. -/
theorem test_witness_inv_one (u : Peripheral) (h : u.Inv) : (one u).Inv where
  each := by intro v hv; rw [one, List.mem_singleton] at hv; exact hv ▸ h
  blocks := List.pairwise_singleton _ _

/-- After `CONFIGURE cA`, with a command at the port. -/
theorem test_inv_idle_with_command (w : CommandWord) (bytes : List Byte) : (one (withCommand on w bytes)).Inv :=
  test_witness_inv_one _ (test_witness_inv_idle _ rfl (show on.params.wf = true by decide) rfl
    (fun n => absurd (show (none : Option Byte).isSome = true from n) (by decide))
    (fun _ _ => show uartA.txen = true by decide) (fun _ _ => show uartA.rxen = true by decide) rfl)

/-- Inside GETN, at the store of the second byte. -/
def storing : Peripheral := withBuffer (withLoop (inside on .rxnBuf (.getn 2)) 2 1 0x33 0x10) [0x11]

theorem test_inv_storing : (one storing).Inv :=
  test_witness_inv_one _
    { block := by decide, buffer := by decide
      phase := .inr ⟨.getn 2, rfl, rfl, by decide, fun _ => by decide⟩
      ebyte := by decide, drdy := by decide, received := by decide, emptied := by decide, txEnabled := by decide
      cacheTx := by decide, cacheRx := by decide, off := by decide, flush := by decide, flushOff := by decide
      flushOn := by decide, readBack := by decide, responses := by decide }

/-- Inside PUTS, past the end of a buffer with no 0x00. -/
def unterminated : Peripheral := withBuffer (withLoop (inside on .txnBuf .puts) 0 1 0x41 0) [0x41]

theorem test_inv_unterminated : (one unterminated).Inv :=
  test_witness_inv_one _
    { block := by decide, buffer := by decide
      phase := .inr ⟨.puts, rfl, rfl, by decide, fun _ => by decide⟩
      ebyte := by decide, drdy := by decide, received := by decide, emptied := by decide, txEnabled := by decide
      cacheTx := by decide, cacheRx := by decide, off := by decide, flush := by decide, flushOff := by decide
      flushOn := by decide, readBack := by decide, responses := by decide }

/-- Inside GETCONFIG, read-back variant, with the parity pattern 1 in Control C. -/
def badParity : Peripheral :=
  { inside onReadBack .rbBaud .getconfig with
    x := { (inside onReadBack .rbBaud .getconfig).x with cfg := 0x10000 }
    uart := { uartA with ctrlC := 0x16 } }

theorem test_inv_badParity : (one badParity).Inv :=
  test_witness_inv_one _
    { block := by decide, buffer := by decide
      phase := .inr ⟨.getconfig, rfl, rfl, by decide, trivial⟩
      ebyte := by decide, drdy := by decide, received := by decide, emptied := by decide, txEnabled := by decide
      cacheTx := by decide, cacheRx := by decide, off := by decide, flush := by decide, flushOff := by decide
      flushOn := by decide, readBack := by decide, responses := by decide }

/-- Whatever bits 15:12 of BAUD read as (V13), the step faults. -/
theorem test_badParity_faults : step (one badParity) = .fault .parityNotValid := by
  have h : ∀ q : BitVec 4, Configuration.unpack (cfgFromBaud 0x10000 (q ++ 0x067#12)) = none := by decide
  have h' : getconfigStep badParity = (regRead16 badParity).andThen fun r => readBackEnd r.1 r.2 := rfl
  have h'' : getconfigStep badParity = .fault .parityNotValid := by
    rw [h', regRead16_eq rfl, Reply.next_andThen]
    show (match Configuration.unpack (cfgFromBaud 0x10000 (Config.baudUnspecified 0 ++ 0x067#12)) with
      | some _ => _
      | none => _) = _
    rw [h]
  show State.onSelf (one badParity) getconfigStep = _
  rw [State.onSelf]
  show (getconfigStep badParity).andThen _ = _
  rw [h'']
  rfl

/-- A state that meets the invariant and goes on. -/
theorem test_witness_StepKeepsTheInvariant :
    (one (withCommand on 0x50000000 [])).Inv ∧ goesOn (step (one (withCommand on 0x50000000 []))) = true :=
  ⟨test_inv_idle_with_command _ _, by decide⟩
/-- A state that meets the invariant for each named stop. -/
theorem test_witness_OnlyNamedStops :
    ((one badParity).Inv ∧ step (one badParity) = .fault .parityNotValid) ∧
    ((one (withCommand on 0xB0000000 [])).Inv ∧
      refusedAs (step (one (withCommand on 0xB0000000 []))) (.reservedWord .reservedOpcode) = true) ∧
    ((one (withCommand on 0x800A0000 [])).Inv ∧
      refusedAs (step (one (withCommand on 0x800A0000 []))) .capacityZero = true) ∧
    ((one storing).Inv ∧ refusedAs (step (one storing)) (.outsideBuffer 1) = true) ∧
    ((one unterminated).Inv ∧ refusedAs (step (one unterminated)) .unterminatedString = true) :=
  ⟨⟨test_inv_badParity, test_badParity_faults⟩, ⟨test_inv_idle_with_command _ _, by decide⟩,
    ⟨test_inv_idle_with_command _ _, by decide⟩, ⟨test_inv_storing, by decide⟩, ⟨test_inv_unterminated, by decide⟩⟩
/-- A state that meets the invariant, in which the cache agrees with the hardware, and which goes on. -/
theorem test_witness_CacheStaysInStepWithTheHardware :
    let s := one (withCommand on 0x10006067 [])
    s.Inv ∧ (∀ u ∈ s.self :: s.others, u.Synced) ∧ goesOn (step s) = true := by
  refine ⟨test_inv_idle_with_command _ _, ?_, by decide⟩
  intro u hu
  rw [show u = withCommand on 0x10006067 [] by simpa [one] using hu]
  unfold Peripheral.Synced
  intro _
  rw [if_neg (by decide), if_neg (by decide)]
  decide
theorem test_witness_WorkingRegistersDoNotLeak : (one on).turns = [] ∧ (one on).self.phase = .idle := by decide
/-- Two ports the spec allows, with disjoint blocks (rule R61). -/
theorem test_witness_ResetMeetsTheInvariants :
    [Config.port0, { Config.port0 with base := 0xD0 }].all Config.Params.wf = true ∧
    [Config.port0, { Config.port0 with base := 0xD0 }].Pairwise (fun p q => p.base + 6 < q.base) := by decide

end Sys2Proof.Tests
end

section
/-! SUPPORT. Rule R18 as noninterference, for the selected peripheral: two runs stay in lockstep while they agree on the
working registers that the command in progress may still read in its phase. -/

namespace Sys2Proof.Machine

/-! ### Two outcomes of one kind -/

/-- Two outcomes that go on with related answers, or stop for the same reason. -/
inductive Reply.Rel {α β : Type} (R : α → β → Prop) : Reply α → Reply β → Prop
  | next {a : α} {b : β} (h : R a b) : Reply.Rel R (.next a) (.next b)
  | fault (f : Fault) : Reply.Rel R (.fault f) (.fault f)
  | refused (r : Refusal) : Reply.Rel R (.refused r) (.refused r)

theorem Reply.Rel.andThen {α β γ δ : Type} {R : α → β → Prop} {S : γ → δ → Prop} {o : Reply α} {o' : Reply β}
    {k : α → Reply γ} {k' : β → Reply δ} (h : Reply.Rel R o o') (hk : ∀ a b, R a b → Reply.Rel S (k a) (k' b)) :
    Reply.Rel S (o.andThen k) (o'.andThen k') := by
  cases h with
  | next h => exact hk _ _ h
  | fault f => exact .fault f
  | refused r => exact .refused r

/-! ### Agreement on some working registers -/

/-- The working registers of rule R17 that a command has to initialise: all but `cmd`. -/
inductive Reg where
  | lim | cnt | err | ebyte | dbyte | tmp | cfg

/-- A working register has one value in both. -/
def Reg.same : Reg → Regs → Regs → Prop
  | .lim, r, q => r.lim = q.lim
  | .cnt, r, q => r.cnt = q.cnt
  | .err, r, q => r.err = q.err
  | .ebyte, r, q => r.ebyte = q.ebyte
  | .dbyte, r, q => r.dbyte = q.dbyte
  | .tmp, r, q => r.tmp = q.tmp
  | .cfg, r, q => r.cfg = q.cfg

/-- The peripherals differ at most in working registers outside `L`, and `c` is the latched word of both. -/
structure Peripheral.Agree (c : CommandWord) (L : List Reg) (u v : Peripheral) : Prop where
  frame : v = u.setX v.x
  word : u.x.cmd = c
  word' : v.x.cmd = c
  regs : ∀ g ∈ L, g.same u.x v.x

section Agree

variable {c : CommandWord} {L L' : List Reg} {u v : Peripheral}

theorem Peripheral.Agree.phase (h : u.Agree c L v) : v.phase = u.phase := by rw [h.frame]; rfl
theorem Peripheral.Agree.params (h : u.Agree c L v) : v.params = u.params := by rw [h.frame]; rfl
theorem Peripheral.Agree.cache (h : u.Agree c L v) : v.cache = u.cache := by rw [h.frame]; rfl
theorem Peripheral.Agree.uart (h : u.Agree c L v) : v.uart = u.uart := by rw [h.frame]; rfl
theorem Peripheral.Agree.buffer (h : u.Agree c L v) : v.buffer = u.buffer := by rw [h.frame]; rfl
theorem Peripheral.Agree.freeCount (h : u.Agree c L v) : v.freeCount = u.freeCount := by rw [h.frame]; rfl
theorem Peripheral.Agree.locate (h : u.Agree c L v) (a : Nat) : v.locate a = u.locate a := by rw [h.frame]; rfl

theorem Peripheral.Agree.lim (h : u.Agree c L v) (hL : .lim ∈ L) : v.x.lim = u.x.lim := (h.regs .lim hL).symm
theorem Peripheral.Agree.cnt (h : u.Agree c L v) (hL : .cnt ∈ L) : v.x.cnt = u.x.cnt := (h.regs .cnt hL).symm
theorem Peripheral.Agree.err (h : u.Agree c L v) (hL : .err ∈ L) : v.x.err = u.x.err := (h.regs .err hL).symm
theorem Peripheral.Agree.ebyte (h : u.Agree c L v) (hL : .ebyte ∈ L) : v.x.ebyte = u.x.ebyte := (h.regs .ebyte hL).symm
theorem Peripheral.Agree.dbyte (h : u.Agree c L v) (hL : .dbyte ∈ L) : v.x.dbyte = u.x.dbyte := (h.regs .dbyte hL).symm
theorem Peripheral.Agree.tmp (h : u.Agree c L v) (hL : .tmp ∈ L) : v.x.tmp = u.x.tmp := (h.regs .tmp hL).symm
theorem Peripheral.Agree.cfg (h : u.Agree c L v) (hL : .cfg ∈ L) : v.x.cfg = u.x.cfg := (h.regs .cfg hL).symm

theorem Peripheral.Agree.mono (h : u.Agree c L v) (hL : L' ⊆ L) : u.Agree c L' v :=
  ⟨h.frame, h.word, h.word', fun g hg => h.regs g (hL hg)⟩

/-- An update that does not touch the working registers keeps the agreement. -/
theorem Peripheral.Agree.update (h : u.Agree c L v) (f : Peripheral → Peripheral)
    (hf : ∀ w r, f (w.setX r) = (f w).setX r) (hx : ∀ w, (f w).x = w.x) : (f u).Agree c L (f v) := by
  refine ⟨?_, ?_, ?_, ?_⟩ <;> simp only [hx]
  · rw [← hf, ← h.frame]
  · exact h.word
  · exact h.word'
  · exact h.regs

/-- An assignment to working registers: those in `W` get one value in both, and no other loses the value it shares. The side
conditions are checked register by register. -/
theorem Peripheral.Agree.assign (h : u.Agree c L v) (W : List Reg) {r q : Regs}
    (hs : ∀ g, g ∈ W ∨ g.same u.x v.x → g.same r q := by intro g; cases g <;> simp +contextual [Reg.same])
    (hr : r.cmd = u.x.cmd := by rfl) (hq : q.cmd = v.x.cmd := by rfl) :
    (u.setX r).Agree c (W ++ L) (v.setX q) where
  frame := by rw [h.frame]; rfl
  word := hr.trans h.word
  word' := hq.trans h.word'
  regs g hg := hs g ((List.mem_append.1 hg).imp_right (h.regs g))

theorem Peripheral.Agree.setTmp (h : u.Agree c L v) (a : BitVec 16) :
    (u.setTmp a).Agree c (.tmp :: L) (v.setTmp a) :=
  h.assign [.tmp]

theorem Peripheral.Agree.goto (h : u.Agree c L v) (p : Phase) : (u.goto p).Agree c L (v.goto p) :=
  h.update (·.goto p) (fun _ _ => rfl) fun _ => rfl

theorem Peripheral.Agree.complete (h : u.Agree c L v) (r : Response) : (u.complete r).Agree c L (v.complete r) :=
  h.update (·.complete r) (fun _ _ => rfl) fun _ => rfl

theorem Peripheral.Agree.emit (h : u.Agree c L v) (a : Access) : (u.emit a).Agree c L (v.emit a) :=
  h.update (·.emit a) (fun _ _ => rfl) fun _ => rfl

theorem Peripheral.Agree.setUart (h : u.Agree c L v) (d : Uart) : (u.setUart d).Agree c L (v.setUart d) :=
  h.update (·.setUart d) (fun _ _ => rfl) fun _ => rfl

theorem Peripheral.Agree.useFree (h : u.Agree c L v) : u.useFree.Agree c L v.useFree :=
  h.update (·.useFree) (fun _ _ => rfl) fun _ => rfl

theorem Peripheral.Agree.setBuffer (h : u.Agree c L v) (m : List Host.Cell) :
    (u.setBuffer m).Agree c L (v.setBuffer m) :=
  h.update (·.setBuffer m) (fun _ _ => rfl) fun _ => rfl

theorem Peripheral.Agree.setCache (h : u.Agree c L v) (d : Configuration) : (u.setCache d).Agree c L (v.setCache d) :=
  h.update (·.setCache d) (fun _ _ => rfl) fun _ => rfl

/-! ### The access primitives read and write no working register -/

/-- What an access that answers a value owes: one value in both, the phase as it was, and the agreement kept. -/
def Peripheral.ReadAgrees {α : Type} (c : CommandWord) (L : List Reg) (u : Peripheral) (a b : α × Peripheral) : Prop :=
  a.1 = b.1 ∧ a.2.phase = u.phase ∧ a.2.Agree c L b.2

theorem Peripheral.Agree.readSlot (h : u.Agree c L v) (r : Slot) :
    Reply.Rel (u.ReadAgrees c L) (u.readSlot r) (v.readSlot r) := by
  cases r <;> simp only [Peripheral.readSlot, h.uart, h.freeCount]
  case ctrlA => exact .next ⟨rfl, rfl, (h.setUart _).emit _⟩
  case ctrlB => exact .next ⟨rfl, rfl, h.emit _⟩
  case ctrlC => exact .next ⟨rfl, rfl, h.emit _⟩
  case baudLow => exact .next ⟨rfl, rfl, h.emit _⟩
  case baudHigh => exact .next ⟨rfl, rfl, h.useFree.emit _⟩
  case data =>
    split
    · exact .next ⟨rfl, rfl, (h.setUart _).emit _⟩
    · exact .refused _

theorem Peripheral.Agree.regRead8 (h : u.Agree c L v) (r : Slot) :
    Reply.Rel (u.ReadAgrees c L) (regRead8 r u) (regRead8 r v) := by
  rw [regRead8_eq, regRead8_eq, h.params]
  split
  · exact h.readSlot r
  · exact .refused _

theorem Peripheral.Agree.writeSlot (h : u.Agree c L v) (r : Slot) (b : Byte) :
    Reply.Rel (Peripheral.Agree c L) (u.writeSlot r b) (v.writeSlot r b) := by
  cases r <;> simp only [Peripheral.writeSlot, h.uart]
  case data =>
    split
    · exact .next ((h.setUart _).emit _)
    · exact .refused _
  all_goals exact .next ((h.setUart _).emit _)

theorem Peripheral.Agree.regWrite8 (h : u.Agree c L v) (r : Slot) (b : Byte) :
    Reply.Rel (Peripheral.Agree c L) (regWrite8 r b u) (regWrite8 r b v) := by
  rw [regWrite8_eq, regWrite8_eq, h.params]
  split
  · exact h.writeSlot r b
  · exact .refused _

theorem Peripheral.Agree.regRead16 (h : u.Agree c L v) :
    Reply.Rel (u.ReadAgrees c L) (regRead16 u) (regRead16 v) := by
  simp only [Machine.regRead16, memRead16, h.params, h.locate, h.uart, h.freeCount, Peripheral.locate_address]
  split <;> simp only [Reply.next_andThen, Reply.refused_andThen]
  · exact .next ⟨rfl, rfl, h.useFree.emit _⟩
  · exact .refused _

theorem Peripheral.Agree.regWrite16 (h : u.Agree c L v) (d : BitVec 16) :
    Reply.Rel (Peripheral.Agree c L) (regWrite16 d u) (regWrite16 d v) := by
  simp only [Machine.regWrite16, memWrite16, h.params, h.locate, h.uart, Peripheral.locate_address]
  split <;> simp only [Reply.next_andThen, Reply.refused_andThen]
  · exact .next ((h.setUart _).emit _)
  · exact .refused _

theorem Peripheral.Agree.bufRead (h : u.Agree c L v) (why : Refusal) (i : Len) :
    Reply.Rel (u.ReadAgrees c L) (bufRead why i u) (bufRead why i v) := by
  simp only [Machine.bufRead, h.buffer]
  split
  · exact .next ⟨rfl, rfl, h.emit _⟩
  · exact .refused _

theorem Peripheral.Agree.bufWrite (h : u.Agree c L v) (i : Len) (b : Byte) :
    Reply.Rel (Peripheral.Agree c L) (bufWrite i b u) (bufWrite i b v) := by
  simp only [Machine.bufWrite, h.buffer]
  split
  · exact .next ((h.setBuffer _).emit _)
  · exact .refused _

end Agree

/-! ### The registers a command in progress may still read -/

/-- The registers that a gated command initialises after its gate and reads in its loop (rules R23, R105, R106, R110 to
R113). -/
def loopRegs : Instr → List Reg
  | .putc _ => [.err]
  | .getc => [.err]
  | .putn _ => [.lim, .cnt, .err]
  | .getn _ => [.lim, .cnt, .err]
  | .gets _ _ => [.lim, .cnt, .err]
  | .puts => [.cnt, .err]
  | .configure _ => []
  | .getconfig => []
  | .geterror => []
  | .flushrx => []

/-- The registers, beside `cmd`, that command `i` in a phase may read before it writes them again; none between commands
(rule R18). -/
def liveRegs (i : Instr) : Phase → List Reg
  | .idle | .gateB | .geA | .flRead | .rbA => []
  | .cfgBOff | .cfgA | .cfgC | .cfgBaud | .cfgBaudLow | .cfgBOn => []
  | .rbB | .rbC | .rbBaud => [.cfg]
  | .rbBaudHigh => [.tmp, .cfg]
  | .flOff | .flOn => [.tmp]
  | .txnBuf | .rxPoll | .rxErr | .rxsTerm => loopRegs i
  | .txPoll | .txData => .dbyte :: loopRegs i
  | .rxData => .ebyte :: loopRegs i
  | .rxnBuf => .dbyte :: .ebyte :: loopRegs i

/-- Both peripherals run command `i` of the word `c`, and agree on all that it may still read. -/
def Peripheral.Lockstep (c : CommandWord) (i : Instr) (u v : Peripheral) : Prop := u.Agree c (liveRegs i u.phase) v

section Lockstep

variable {c : CommandWord} {L : List Reg} {i : Instr} {u v : Peripheral}

/-- Agreement on what the next phase may read puts the two in lockstep there. -/
theorem Peripheral.Agree.lockstep_goto (h : u.Agree c L v) {p : Phase} (hL : liveRegs i p ⊆ L) :
    (u.goto p).Lockstep c i (v.goto p) := (h.goto p).mono hL

/-- The end of a command needs no agreement. -/
theorem Peripheral.Agree.lockstep_complete (h : u.Agree c L v) (r : Response) :
    (u.complete r).Lockstep c i (v.complete r) := (h.complete r).mono (List.nil_subset L)

theorem Peripheral.Lockstep.agree (h : u.Lockstep c i v) {p : Phase} (hp : u.phase = p) :
    u.Agree c (liveRegs i p) v := hp ▸ h

/-! ### The gates, the polls and the bodies -/

theorem openGate_lockstep {start : Peripheral → Peripheral} (h : u.Agree c L v)
    (hstart : ∀ w w', w.Agree c L w' → (start w).Lockstep c i (start w')) (isOpen : Bool) (fail : Response) :
    (openGate isOpen fail start u).Lockstep c i (openGate isOpen fail start v) := by
  cases isOpen with
  | true => exact hstart u v h
  | false => exact h.lockstep_complete fail

theorem acceptGated_lockstep {start : Peripheral → Peripheral} (h : u.Agree c L v)
    (hstart : ∀ {L w w'}, w.Agree c L w' → (start w).Lockstep c i (start w')) (d : Direction) (fail : Response) :
    Reply.Rel (Peripheral.Lockstep c i) (acceptGated d fail start u) (acceptGated d fail start v) := by
  simp only [acceptGated, h.params, h.cache]
  split
  · exact .next (openGate_lockstep h (fun _ _ => hstart) _ _)
  · exact .next (h.lockstep_goto (List.nil_subset L))

theorem gateStep_lockstep {start : Peripheral → Peripheral} (h : u.Agree c L v)
    (hstart : ∀ {L w w'}, w.Agree c L w' → (start w).Lockstep c i (start w')) (d : Direction) (fail : Response) :
    Reply.Rel (Peripheral.Lockstep c i) (gateStep d fail start u) (gateStep d fail start v) :=
  (h.regRead8 .ctrlB).andThen fun (b, _) (_, _) ⟨hb, _, hw⟩ => by
    cases hb
    exact .next (openGate_lockstep (hw.setTmp (b.setWidth 16)) (fun _ _ => hstart) _ _)

/-- A poll stays in lockstep when the phase it ends in reads no more than the poll's own. -/
theorem pollStep_lockstep {p found : Phase} (h : u.Agree c (liveRegs i p) v) (hp : u.phase = p)
    (hf : liveRegs i found ⊆ liveRegs i p) (ready : Byte → Bool) :
    Reply.Rel (Peripheral.Lockstep c i) (pollStep ready found u) (pollStep ready found v) :=
  (h.regRead8 .ctrlA).andThen fun (a, w) (_, w') ⟨ha, hwp, hw⟩ => by
    cases ha
    have ht := (hw.setTmp (a.setWidth 16)).mono (List.subset_cons_self _ _)
    refine .next ?_
    split
    · exact ht.lockstep_goto hf
    · rw [Peripheral.Lockstep, Peripheral.setTmp_phase, hwp, hp]; exact ht

theorem txPollStep_lockstep (h : u.Agree c (.dbyte :: loopRegs i) v) (hp : u.phase = .txPoll) :
    Reply.Rel (Peripheral.Lockstep c i) (txPollStep u) (txPollStep v) :=
  pollStep_lockstep (p := .txPoll) (found := .txData) h hp (List.Subset.refl _) bufferIsEmpty

theorem rxPollStep_lockstep (h : u.Agree c (loopRegs i) v) (hp : u.phase = .rxPoll) :
    Reply.Rel (Peripheral.Lockstep c i) (rxPollStep u) (rxPollStep v) :=
  pollStep_lockstep (p := .rxPoll) (found := .rxErr) h hp (List.Subset.refl _) dataReady

theorem rxErrStep_lockstep (h : u.Agree c (loopRegs i) v) :
    Reply.Rel (Peripheral.Lockstep c i) (rxErrStep u) (rxErrStep v) :=
  (h.regRead8 .ctrlA).andThen fun (_, _) (_, _) ⟨ha, _, hw⟩ => by
    cases ha
    exact .next ((hw.assign [.ebyte]).lockstep_goto (List.Subset.refl _))

theorem rxDataStep_agrees (h : u.Agree c L v) :
    Reply.Rel (Peripheral.Agree c (.dbyte :: L)) (rxDataStep u) (rxDataStep v) :=
  (h.regRead8 .data).andThen fun (_, _) (_, _) ⟨hd, _, hw⟩ => by
    cases hd
    exact .next (hw.assign [.dbyte])

theorem txDataStep_agrees (h : u.Agree c (.dbyte :: L) v) :
    Reply.Rel (Peripheral.Agree c L) (txDataStep u) (txDataStep v) := by
  rw [txDataStep, txDataStep, h.dbyte List.mem_cons_self]
  refine ((h.mono (List.subset_cons_self _ _)).regWrite8 .data u.x.dbyte).andThen fun w w' hw => ?_
  simp only [aggregate_none]
  exact .next (hw.assign [])

theorem txnBufStep_agrees (h : u.Agree c L v) (hcnt : .cnt ∈ L) (why : Refusal) :
    Reply.Rel (Peripheral.Agree c (.dbyte :: L)) (txnBufStep why u) (txnBufStep why v) := by
  rw [txnBufStep, txnBufStep, h.cnt hcnt]
  refine (h.bufRead why u.x.cnt).andThen fun (_, _) (_, _) ⟨hb, _, hw⟩ => ?_
  cases hb
  exact .next (hw.assign [.dbyte])

/-- The received byte stored: all that the loop of GETN and GETS reads stays agreed. -/
theorem rxnBufStep_agrees (h : u.Agree c [.dbyte, .ebyte, .lim, .cnt, .err] v) :
    Reply.Rel (Peripheral.Agree c [.dbyte, .ebyte, .lim, .cnt, .err]) (rxnBufStep u) (rxnBufStep v) := by
  rw [rxnBufStep, rxnBufStep, h.cnt (by simp), h.dbyte (by simp)]
  refine (h.bufWrite u.x.cnt u.x.dbyte).andThen fun w w' hw => ?_
  rw [hw.ebyte (by simp)]
  exact .next (hw.assign [])

theorem readBackEnd_lockstep (h : u.Agree c L v) (hcfg : .cfg ∈ L) (d : BitVec 16) :
    Reply.Rel (Peripheral.Lockstep c i) (readBackEnd d u) (readBackEnd d v) := by
  have hw := h.assign [] (r := { u.x with tmp := d, cfg := cfgFromBaud u.x.cfg d })
    (q := { v.x with tmp := d, cfg := cfgFromBaud v.x.cfg d })
  simp only [readBackEnd, Peripheral.setX_x, h.cfg hcfg] at hw ⊢
  split
  · exact .next (hw.lockstep_complete _)
  · exact .fault _

/-! ### The commands: each step keeps the two in lockstep -/

theorem putcStart_lockstep (byte : Byte) (h : u.Agree c L v) :
    (putcStart byte u).Lockstep c (.putc byte) (putcStart byte v) :=
  (h.assign [.dbyte, .err]).lockstep_goto (List.subset_append_left _ _)

theorem putcStep_lockstep (byte : Byte) (h : u.Lockstep c (.putc byte) v) :
    Reply.Rel (Peripheral.Lockstep c (.putc byte)) (putcStep byte u) (putcStep byte v) := by
  simp only [putcStep, h.phase]
  split
  next => exact acceptGated_lockstep h (putcStart_lockstep byte) _ _
  next => exact gateStep_lockstep h (putcStart_lockstep byte) _ _
  next hp => exact txPollStep_lockstep (h.agree hp) hp
  next hp =>
    refine (txDataStep_agrees (h.agree hp)).andThen fun w w' hw => ?_
    rw [hw.err (by simp [loopRegs])]
    exact .next (hw.lockstep_complete _)
  next => exact .fault _

theorem getcStart_lockstep (h : u.Agree c L v) : (getcStart u).Lockstep c .getc (getcStart v) :=
  (h.assign [.err]).lockstep_goto (List.subset_append_left _ _)

theorem getcStep_lockstep (h : u.Lockstep c .getc v) :
    Reply.Rel (Peripheral.Lockstep c .getc) (getcStep u) (getcStep v) := by
  simp only [getcStep, h.phase]
  split
  next => exact acceptGated_lockstep h getcStart_lockstep _ _
  next => exact gateStep_lockstep h getcStart_lockstep _ _
  next hp => exact rxPollStep_lockstep (h.agree hp) hp
  next hp => exact rxErrStep_lockstep (h.agree hp)
  next hp =>
    refine (rxDataStep_agrees (h.agree hp)).andThen fun w w' hw => ?_
    simp only [Peripheral.setX_x, hw.dbyte (by simp), hw.ebyte (by simp [liveRegs]),
      hw.err (by simp [liveRegs, loopRegs])]
    exact .next (Peripheral.Agree.lockstep_complete (hw.assign []) _)
  next => exact .fault _

/-- The loop registers initialised after a gate agree, whatever they held before. -/
theorem setLoop_agrees (h : u.Agree c L v) (limit : Len) :
    (u.setX { u.x with lim := limit, cnt := 0, err := ErrorMask.none }).Agree c [.lim, .cnt, .err]
      (v.setX { v.x with lim := limit, cnt := 0, err := ErrorMask.none }) :=
  (h.assign [.lim, .cnt, .err]).mono (List.subset_append_left _ _)

theorem putnLoop_lockstep (length : Len) (h : u.Agree c [.lim, .cnt, .err] v) :
    (putnLoop u).Lockstep c (.putn length) (putnLoop v) := by
  rw [putnLoop, putnLoop, h.cnt (by simp), h.lim (by simp), h.err (by simp)]
  split
  · exact h.lockstep_goto (List.Subset.refl _)
  · exact h.lockstep_complete _

theorem putnStart_lockstep (length : Len) (h : u.Agree c L v) :
    (putnStart length u).Lockstep c (.putn length) (putnStart length v) :=
  putnLoop_lockstep length (setLoop_agrees h _)

theorem putnStep_lockstep (length : Len) (h : u.Lockstep c (.putn length) v) :
    Reply.Rel (Peripheral.Lockstep c (.putn length)) (putnStep length u) (putnStep length v) := by
  simp only [putnStep, h.phase]
  split
  next => exact acceptGated_lockstep h (putnStart_lockstep length) _ _
  next => exact gateStep_lockstep h (putnStart_lockstep length) _ _
  next hp =>
    have hl := h.agree hp
    rw [hl.cnt (by simp [liveRegs, loopRegs])]
    exact (txnBufStep_agrees hl (by simp [liveRegs, loopRegs]) _).andThen fun _ _ hw =>
      .next (hw.lockstep_goto (List.Subset.refl _))
  next hp => exact txPollStep_lockstep (h.agree hp) hp
  next hp =>
    exact (txDataStep_agrees (h.agree hp)).andThen fun _ _ hw => .next (putnLoop_lockstep length (hw.assign []))
  next => exact .fault _

theorem getnLoop_lockstep (length : Len) (h : u.Agree c [.lim, .cnt, .err] v) :
    (getnLoop u).Lockstep c (.getn length) (getnLoop v) := by
  rw [getnLoop, getnLoop, h.cnt (by simp), h.lim (by simp), h.err (by simp)]
  split
  · exact h.lockstep_goto (List.Subset.refl _)
  · exact h.lockstep_complete _

theorem getnStart_lockstep (length : Len) (h : u.Agree c L v) :
    (getnStart length u).Lockstep c (.getn length) (getnStart length v) :=
  getnLoop_lockstep length (setLoop_agrees h _)

theorem getnStep_lockstep (length : Len) (h : u.Lockstep c (.getn length) v) :
    Reply.Rel (Peripheral.Lockstep c (.getn length)) (getnStep length u) (getnStep length v) := by
  simp only [getnStep, h.phase]
  split
  next => exact acceptGated_lockstep h (getnStart_lockstep length) _ _
  next => exact gateStep_lockstep h (getnStart_lockstep length) _ _
  next hp => exact rxPollStep_lockstep (h.agree hp) hp
  next hp => exact rxErrStep_lockstep (h.agree hp)
  next hp =>
    exact (rxDataStep_agrees (h.agree hp)).andThen fun _ _ hw => .next (hw.lockstep_goto (List.Subset.refl _))
  next hp =>
    refine (rxnBufStep_agrees (h.agree hp)).andThen fun w w' hw => .next ?_
    rw [hw.ebyte (by simp), hw.err (by simp), hw.cnt (by simp)]
    split
    · exact hw.lockstep_complete _
    · exact getnLoop_lockstep length (hw.mono (by simp))
  next => exact .fault _

theorem getsLoop_lockstep (capacity : Len) (delimiter : Byte) (h : u.Agree c [.lim, .cnt, .err] v) :
    (getsLoop u).Lockstep c (.gets capacity delimiter) (getsLoop v) := by
  rw [getsLoop, getsLoop, h.cnt (by simp), h.lim (by simp)]
  split <;> exact h.lockstep_goto (List.Subset.refl _)

theorem getsStart_lockstep (capacity : Len) (delimiter : Byte) (h : u.Agree c L v) :
    (getsStart capacity u).Lockstep c (.gets capacity delimiter) (getsStart capacity v) :=
  getsLoop_lockstep capacity delimiter (setLoop_agrees h _)

theorem getsStep_lockstep (capacity : Len) (delimiter : Byte) (h : u.Lockstep c (.gets capacity delimiter) v) :
    Reply.Rel (Peripheral.Lockstep c (.gets capacity delimiter)) (getsStep capacity delimiter u)
      (getsStep capacity delimiter v) := by
  simp only [getsStep, h.phase]
  split
  next => exact .refused _
  split
  next => exact acceptGated_lockstep h (getsStart_lockstep capacity delimiter) _ _
  next => exact gateStep_lockstep h (getsStart_lockstep capacity delimiter) _ _
  next hp => exact rxPollStep_lockstep (h.agree hp) hp
  next hp => exact rxErrStep_lockstep (h.agree hp)
  next hp =>
    exact (rxDataStep_agrees (h.agree hp)).andThen fun _ _ hw => .next (hw.lockstep_goto (List.Subset.refl _))
  next hp =>
    refine (rxnBufStep_agrees (h.agree hp)).andThen fun w w' hw => .next ?_
    rw [hw.ebyte (by simp), hw.dbyte (by simp)]
    split
    · exact hw.lockstep_goto (by simp [liveRegs, loopRegs])
    · exact getsLoop_lockstep capacity delimiter (hw.mono (by simp))
  next hp =>
    have hl := h.agree hp
    rw [hl.cnt (by simp [liveRegs, loopRegs])]
    refine (hl.bufWrite u.x.cnt 0x00).andThen fun w w' hw => ?_
    rw [hw.err (by simp [liveRegs, loopRegs]), hw.cnt (by simp [liveRegs, loopRegs])]
    exact .next (hw.lockstep_complete _)
  next => exact .fault _

theorem putsStart_lockstep (h : u.Agree c L v) : (putsStart u).Lockstep c .puts (putsStart v) :=
  (h.assign [.cnt, .err]).lockstep_goto (List.subset_append_left _ _)

theorem putsStep_lockstep (h : u.Lockstep c .puts v) :
    Reply.Rel (Peripheral.Lockstep c .puts) (putsStep u) (putsStep v) := by
  simp only [putsStep, h.phase]
  split
  next => exact acceptGated_lockstep h putsStart_lockstep _ _
  next => exact gateStep_lockstep h putsStart_lockstep _ _
  next hp =>
    refine (txnBufStep_agrees (h.agree hp) (by simp [liveRegs, loopRegs]) _).andThen fun w w' hw => .next ?_
    rw [hw.dbyte (by simp), hw.err (by simp [liveRegs, loopRegs])]
    split
    · exact hw.lockstep_complete _
    · exact hw.lockstep_goto (List.Subset.refl _)
  next hp => exact txPollStep_lockstep (h.agree hp) hp
  next hp =>
    refine (txDataStep_agrees (h.agree hp)).andThen fun w w' hw => ?_
    rw [hw.cnt (by simp [loopRegs])]
    split
    · exact .refused _
    · exact .next (Peripheral.Agree.lockstep_goto (hw.assign []) (List.Subset.refl _))
  next => exact .fault _

theorem configureStep_lockstep (d : Configuration) (h : u.Lockstep c (.configure d) v) :
    Reply.Rel (Peripheral.Lockstep c (.configure d)) (configureStep d u) (configureStep d v) := by
  simp only [configureStep, h.phase, h.params]
  split
  next => exact .next (h.lockstep_goto (List.nil_subset _))
  next => exact (h.regWrite8 _ _).andThen fun _ _ hw => .next (hw.lockstep_goto (List.nil_subset _))
  next => exact (h.regWrite8 _ _).andThen fun _ _ hw => .next (hw.lockstep_goto (List.nil_subset _))
  next => exact (h.regWrite8 _ _).andThen fun _ _ hw => .next (hw.lockstep_goto (List.nil_subset _))
  next =>
    split
    · exact (h.regWrite16 _).andThen fun _ _ hw => .next (hw.lockstep_goto (List.nil_subset _))
    · exact (h.regWrite8 _ _).andThen fun _ _ hw => .next (hw.lockstep_goto (List.nil_subset _))
  next => exact (h.regWrite8 _ _).andThen fun _ _ hw => .next (hw.lockstep_goto (List.nil_subset _))
  next =>
    refine (h.regWrite8 _ _).andThen fun w w' hw => .next ?_
    rw [hw.params]
    split
    · exact (hw.setCache d).lockstep_complete _
    · exact hw.lockstep_complete _
  next => exact .fault _

theorem getconfigStep_lockstep (h : u.Lockstep c .getconfig v) :
    Reply.Rel (Peripheral.Lockstep c .getconfig) (getconfigStep u) (getconfigStep v) := by
  simp only [getconfigStep, h.phase, h.params, h.cache]
  split
  next =>
    split
    · exact .next (h.lockstep_complete _)
    · exact .next (h.lockstep_goto (List.nil_subset _))
  next =>
    refine (h.regRead8 _).andThen fun (_, _) (_, _) ⟨ha, _, hw⟩ => ?_
    cases ha
    exact .next ((hw.assign [.cfg]).lockstep_goto (by simp [liveRegs]))
  next hp =>
    refine ((h.agree hp).regRead8 _).andThen fun (_, _) (_, _) ⟨hb, _, hw⟩ => ?_
    cases hb
    exact .next ((hw.assign []).lockstep_goto (by simp [liveRegs]))
  next hp =>
    refine ((h.agree hp).regRead8 _).andThen fun (_, _) (_, _) ⟨hk, _, hw⟩ => ?_
    cases hk
    exact .next ((hw.assign []).lockstep_goto (by simp [liveRegs]))
  next hp =>
    split
    · refine (h.agree hp).regRead16.andThen fun (d, _) (_, _) ⟨hd, _, hw⟩ => ?_
      cases hd
      exact readBackEnd_lockstep hw (by simp [liveRegs]) d
    · refine ((h.agree hp).regRead8 _).andThen fun (low, _) (_, _) ⟨hlow, _, hw⟩ => ?_
      cases hlow
      exact .next ((hw.setTmp _).lockstep_goto (List.Subset.refl _))
  next hp =>
    refine ((h.agree hp).regRead8 _).andThen fun (high, w) (_, w') ⟨hhigh, _, hw⟩ => ?_
    cases hhigh
    rw [show w'.x.tmp = w.x.tmp from hw.tmp (by simp [liveRegs])]
    exact readBackEnd_lockstep hw (by simp [liveRegs]) _
  next => exact .fault _

theorem geterrorStep_lockstep (h : u.Lockstep c .geterror v) :
    Reply.Rel (Peripheral.Lockstep c .geterror) (geterrorStep u) (geterrorStep v) := by
  simp only [geterrorStep, h.phase]
  split
  next => exact .next (h.lockstep_goto (List.nil_subset _))
  next =>
    refine (h.regRead8 _).andThen fun (_, _) (_, _) ⟨ha, _, hw⟩ => ?_
    cases ha
    exact .next ((hw.setTmp _).lockstep_complete _)
  next => exact .fault _

theorem flushrxStep_lockstep (h : u.Lockstep c .flushrx v) :
    Reply.Rel (Peripheral.Lockstep c .flushrx) (flushrxStep u) (flushrxStep v) := by
  simp only [flushrxStep, h.phase, h.params, h.cache]
  split
  next =>
    split
    · exact .next (h.lockstep_complete _)
    · exact .next (h.lockstep_goto (List.nil_subset _))
  next =>
    refine (h.regRead8 _).andThen fun (b, w) (_, w') ⟨hb, _, hw⟩ => .next ?_
    cases hb
    have ht := hw.setTmp (b.setWidth 16)
    simp only [ht.params]
    split
    · exact ht.lockstep_complete _
    · exact ht.lockstep_goto (by simp [liveRegs])
  next hp =>
    have hl := h.agree hp
    rw [hl.tmp (by simp [liveRegs])]
    exact (hl.regWrite8 _ _).andThen fun _ _ hw => .next (hw.lockstep_goto (List.Subset.refl _))
  next hp =>
    have hl := h.agree hp
    rw [hl.tmp (by simp [liveRegs])]
    exact (hl.regWrite8 _ _).andThen fun _ _ hw => .next (hw.lockstep_complete _)
  next => exact .fault _

end Lockstep

/-! ### The machine -/

/-- The machines differ at most in working registers; both stand between two commands, or run one command in lockstep. -/
structure State.Lockstep (s t : State) : Prop where
  frame : t = { s with self := s.self.setX t.self.x }
  turns : s.turns = []
  command : s.self.phase = .idle ∨ ∃ c i, decode c = .ok i ∧ s.self.Lockstep c i t.self

section Machine

variable {s t : State} {c : CommandWord} {i : Instr}

/-- A meaning that keeps two peripherals in lockstep keeps the machines around them so. -/
theorem State.onSelf_lockstep {f : Peripheral → Reply Peripheral} (hi : decode c = .ok i)
    (hst : t = { s with self := t.self }) (hturns : s.turns = [])
    (h : Reply.Rel (Peripheral.Lockstep c i) (f s.self) (f t.self)) :
    Reply.Rel State.Lockstep (s.onSelf f) (t.onSelf f) := by
  rw [hst]
  exact h.andThen fun u v huv =>
    .next ⟨congrArg (fun w => { s with self := w }) huv.frame, hturns, .inr ⟨c, i, hi, huv⟩⟩

theorem exec_lockstep (hi : decode c = .ok i) (hst : t = { s with self := t.self }) (hturns : s.turns = [])
    (h : s.self.Lockstep c i t.self) : Reply.Rel State.Lockstep (exec i s) (exec i t) := by
  cases i with
  | configure d => exact State.onSelf_lockstep hi hst hturns (configureStep_lockstep d h)
  | getconfig => exact State.onSelf_lockstep hi hst hturns (getconfigStep_lockstep h)
  | geterror => exact State.onSelf_lockstep hi hst hturns (geterrorStep_lockstep h)
  | putc byte => exact State.onSelf_lockstep hi hst hturns (putcStep_lockstep byte h)
  | getc => exact State.onSelf_lockstep hi hst hturns (getcStep_lockstep h)
  | putn length => exact State.onSelf_lockstep hi hst hturns (putnStep_lockstep length h)
  | getn length => exact State.onSelf_lockstep hi hst hturns (getnStep_lockstep length h)
  | gets capacity delimiter => exact State.onSelf_lockstep hi hst hturns (getsStep_lockstep capacity delimiter h)
  | puts => exact State.onSelf_lockstep hi hst hturns (putsStep_lockstep h)
  | flushrx => exact State.onSelf_lockstep hi hst hturns (flushrxStep_lockstep h)

theorem State.prepare_of_no_turns (h : s.turns = []) : s.prepare = { s with self := s.self.lineTurn } := by
  obtain ⟨self, others, turns⟩ := s
  cases h
  rfl

/-- The line side sees no working register, so its turn keeps the lockstep. -/
theorem State.Lockstep.prepare (h : s.Lockstep t) : s.prepare.Lockstep t.prepare := by
  obtain ⟨hst, hturns, hcmd⟩ := h
  have ht : t.turns = [] := by rw [hst]; exact hturns
  rw [State.prepare_of_no_turns hturns, State.prepare_of_no_turns ht]
  refine ⟨by rw [hst]; rfl, hturns, hcmd.imp_right fun ⟨c, i, hi, h⟩ => ⟨c, i, hi, ?_⟩⟩
  exact Peripheral.Agree.update h (·.lineTurn) (fun _ _ => rfl) fun _ => rfl

/-- A command accepted in `IDLE` begins in lockstep: its word is latched in both, and it may read nothing else. -/
theorem Peripheral.accept_lockstep {u : Peripheral} (r : Regs) (hu : u.phase = .idle) (d : HostCommand)
    (rest : List HostCommand) : (u.accept d rest).Lockstep d.word i ((u.setX r).accept d rest) := by
  rw [Peripheral.Lockstep, Peripheral.accept_phase, hu]
  exact ⟨rfl, rfl, rfl, by simp [liveRegs]⟩

theorem step_lockstep (h : s.Lockstep t) : Reply.Rel State.Lockstep (step s) (step t) := by
  have hp := h.prepare
  rw [step, step]
  generalize s.prepare = s at hp ⊢
  generalize t.prepare = t at hp ⊢
  obtain ⟨hst, hturns, hcmd⟩ := hp
  by_cases hidle : s.self.phase = .idle
  · rw [hst]
    simp only [State.fetch, Peripheral.setX_phase, Peripheral.setX_port, hidle, if_true]
    cases s.self.port with
    | nil => exact .next ⟨rfl, hturns, .inl hidle⟩
    | cons d rest =>
      cases hd : decode d.word with
      | error why => simp only [hd]; exact .refused _
      | ok i =>
        simp only [hd]
        exact exec_lockstep hd rfl hturns (Peripheral.accept_lockstep t.self.x hidle d rest)
  · obtain ⟨c, i, hi, hl⟩ := hcmd.resolve_left hidle
    simp only [State.fetch, Peripheral.Agree.phase hl, hidle, if_false, Peripheral.Agree.word hl,
      Peripheral.Agree.word' hl, hi]
    exact exec_lockstep hi (by rw [hst]) hturns hl

theorem run_lockstep (n : Nat) (h : s.Lockstep t) : Reply.Rel State.Lockstep (run n s) (run n t) := by
  induction n generalizing s t with
  | zero => exact .next h
  | succ n ih => exact (step_lockstep h).andThen fun _ _ => ih

/-- Lockstep is agreement in everything but the working registers. -/
theorem Reply.withoutRegs_eq_of_lockstep {o o' : Reply State} (h : Reply.Rel State.Lockstep o o') :
    o'.withoutRegs = o.withoutRegs := by
  cases h with
  | next h => rw [h.frame]; rfl
  | fault f => rfl
  | refused r => rfl

end Machine

/-- Settles O60: two states in `IDLE` are in lockstep whatever their working registers hold, and every step keeps two
machines in lockstep, for a command writes each working register before its phases read it. -/
theorem workingRegistersDoNotLeak : Obligations.WorkingRegistersDoNotLeak := by
  intro n s r hturns hidle
  exact Reply.withoutRegs_eq_of_lockstep (run_lockstep n ⟨rfl, hturns, .inl hidle⟩)

end Sys2Proof.Machine
end

section
/-! SUPPORT. Rules R85, R87, R89 and R98: where the encoders of 40_configuration.md place each field, and which bits the error
decoder keeps. -/

namespace Sys2Proof.Machine

/-! ### The enable encoder and the baud divisor loader (rules R85 and R89) -/

theorem encB_eq_add (c : Configuration) :
    encB c = (if c.receiveEnabled then 0x10 else 0x00) + (if c.transmitEnabled then 0x08 else 0x00) := by
  unfold encB
  cases c.receiveEnabled <;> cases c.transmitEnabled <;> decide

theorem encBaud_extract_divisor (c : Configuration) : (encBaud c).extractLsb' 0 12 = c.baudDivisor := by
  rw [encBaud, BitVec.extractLsb'_setWidth_of_le (by decide), BitVec.extractLsb'_eq_self]

theorem encBaud_extract_high (c : Configuration) : (encBaud c).extractLsb' 12 4 = 0 := by
  ext i hi
  simp [encBaud]

/-- Settles O6: the four pairs of enables, and the divisor zero-extended to the width of BAUD. -/
theorem encodersOfEnableAndBaud : Obligations.EncodersOfEnableAndBaud := by
  refine ⟨rfl, fun c => ⟨encB_eq_add c, encBaud_extract_divisor c, encBaud_extract_high c, fun d hd => ?_⟩⟩
  rw [encBaud, encBaud, hd]

/-! ### The frame encoder (rule R87) -/

theorem encC_zero_bits (csz8 : BitVec 2) (c : Configuration) :
    bit (encC csz8 c) 7 = false ∧ bit (encC csz8 c) 6 = false ∧ bit (encC csz8 c) 0 = false := by
  simp [encC]

theorem encC_extract_parity (csz8 : BitVec 2) (c : Configuration) :
    (encC csz8 c).extractLsb' 4 2 = c.parity.code := by
  ext i hi
  interval_cases i <;> simp [encC]

theorem encC_extract_stopBits (csz8 : BitVec 2) (c : Configuration) :
    (encC csz8 c).extractLsb' 3 1 = c.stopBits.code := by
  ext i hi
  interval_cases i
  simp [encC]

theorem encC_extract_csz8 (csz8 : BitVec 2) (c : Configuration) : (encC csz8 c).extractLsb' 1 2 = csz8 := by
  ext i hi
  interval_cases i <;> simp [encC]

/-- Settles O8: bit by bit the shifted fields do not overlap, and the six values are the six pairs of parity and stop bits. -/
theorem frameEncoderFields : Obligations.FrameEncoderFields := by
  intro csz8 c
  obtain ⟨h7, h6, h0⟩ := encC_zero_bits csz8 c
  refine ⟨h7, h6, h0, encC_extract_parity csz8 c, encC_extract_stopBits csz8 c, encC_extract_csz8 csz8 c, ?_⟩
  rintro rfl
  rw [encC]
  cases c.parity <;> cases c.stopBits <;> rfl

/-! ### The error decoder (rule R98) -/

theorem hardware_bit (i : Nat) : bit ErrorMask.hardware i = (i == 2 || i == 3 || i == 4) := by
  rcases Nat.lt_or_ge i 8 with hi | hi
  · interval_cases i <;> decide
  · have hne : i ≠ 2 ∧ i ≠ 3 ∧ i ≠ 4 := by omega
    simp [BitVec.getLsbD_of_ge _ _ hi, hne]

theorem decErr_bit (a : Byte) (i : Nat) : bit (decErr a) i = (bit a i && (i == 2 || i == 3 || i == 4)) := by
  rw [← hardware_bit]
  exact BitVec.getLsbD_and

/-- In phase `RX_ERR` the three receiving commands share one step, the receive body's capture (rule R104). -/
theorem exec_rxErr {i : Instr} {s : State} (hr : i.receives = true) (hw : i.wf = true) (hp : s.self.phase = .rxErr) :
    exec i s = s.onSelf rxErrStep := by
  cases i with
  | getc => simp only [exec, execGetc, State.onSelf, getcStep, hp]
  | getn length => simp only [exec, execGetn, State.onSelf, getnStep, hp]
  | gets capacity delimiter =>
    have hc : capacity ≠ 0 := by simpa [Instr.wf] using hw
    simp only [exec, execGets, State.onSelf, getsStep, hp, hc, if_false]
  | _ => cases hr

/-- Settles O11: the mask `HWERR` bit by bit, and the one capture step of GETC, GETN and GETS. -/
theorem errorDecoderKeepsThreeBits : Obligations.ErrorDecoderKeepsThreeBits := by
  refine ⟨decErr_bit, rfl, rfl, rfl, fun i s hr hw hp hblock => ?_⟩
  rw [exec_rxErr hr hw hp, State.onSelf_of_next (rxErrStep_eq hblock)]
  exact ⟨_, rfl, rfl⟩

end Sys2Proof.Machine
end

section
/-! SUPPORT. Rules R39, R94 and R119: the cache through the access primitives, the shared steps and every command; the last
write of CONFIGURE alone changes it. -/

namespace Sys2Proof.Machine

/-! ### What an operation guarantees when it goes on -/

/-- If the operation goes on, its answer has the property; a stop guarantees nothing. -/
inductive Reply.Ensures {α : Type} (P : α → Prop) : Reply α → Prop
  | next {a : α} (h : P a) : Reply.Ensures P (.next a)
  | fault (f : Fault) : Reply.Ensures P (.fault f)
  | refused (r : Refusal) : Reply.Ensures P (.refused r)

section Ensures

variable {α β : Type} {P : α → Prop} {Q : β → Prop} {o : Reply α}

theorem Reply.ensures_iff : Reply.Ensures P o ↔ ∀ a, o = .next a → P a := by
  constructor
  · rintro (h | f | r) a ha
    · cases ha; exact h
    · cases ha
    · cases ha
  · intro h
    cases o with
    | next a => exact .next (h a rfl)
    | fault f => exact .fault f
    | refused r => exact .refused r

theorem Reply.Ensures.andThen {k : α → Reply β} (h : Reply.Ensures P o) (hk : ∀ a, P a → Reply.Ensures Q (k a)) :
    Reply.Ensures Q (o.andThen k) := by
  cases h with
  | next h => exact hk _ h
  | fault f => exact .fault f
  | refused r => exact .refused r

theorem Reply.Ensures.mono {R : α → Prop} (h : Reply.Ensures P o) (hR : ∀ a, P a → R a) : Reply.Ensures R o :=
  Reply.ensures_iff.2 fun a ha => hR a (Reply.ensures_iff.1 h a ha)

theorem State.onSelf_ensures {s : State} {f : Peripheral → Reply Peripheral} {P : Peripheral → Prop}
    (h : Reply.Ensures P (f s.self)) : Reply.Ensures (fun t : State => P t.self) (s.onSelf f) :=
  h.andThen fun _ hw => .next hw

end Ensures

/-- The operation goes on only with the cache at `c`. -/
def Reply.CacheIs (c : Configuration) (o : Reply Peripheral) : Prop := Reply.Ensures (fun w => w.cache = c) o

section Cache

variable {u : Peripheral} {c : Configuration}

/-! ### The access primitives -/

theorem regRead8_cache (h : u.cache = c) (r : Slot) : Reply.Ensures (fun a => a.2.cache = c) (regRead8 r u) :=
  Reply.ensures_iff.2 fun (_, _) ha => by
    obtain ⟨_, _, _, _, hw⟩ := regRead8_next ha
    rw [hw]; exact h

theorem regWrite8_params_cache (r : Slot) (b : Byte) :
    Reply.Ensures (fun w => w.params = u.params ∧ w.cache = u.cache) (regWrite8 r b u) :=
  Reply.ensures_iff.2 fun _ hw => by
    obtain ⟨_, _, _, hw⟩ := regWrite8_next hw
    rw [hw]; exact ⟨rfl, rfl⟩

theorem regWrite8_cache (h : u.cache = c) (r : Slot) (b : Byte) : Reply.CacheIs c (regWrite8 r b u) :=
  (regWrite8_params_cache r b).mono fun _ ⟨_, hw⟩ => hw.trans h

theorem regRead16_cache (h : u.cache = c) : Reply.Ensures (fun a => a.2.cache = c) (regRead16 u) := by
  simp only [regRead16, memRead16, Peripheral.locate_address]
  split
  · exact .next h
  · exact .refused _

theorem regWrite16_cache (h : u.cache = c) (v : BitVec 16) : Reply.CacheIs c (regWrite16 v u) := by
  simp only [regWrite16, memWrite16, Peripheral.locate_address]
  split
  · exact .next h
  · exact .refused _

theorem bufRead_cache (h : u.cache = c) (why : Refusal) (i : Len) :
    Reply.Ensures (fun a => a.2.cache = c) (bufRead why i u) :=
  Reply.ensures_iff.2 fun (_, _) ha => by
    obtain ⟨_, rfl⟩ := bufRead_next ha
    exact h

theorem bufWrite_cache (h : u.cache = c) (i : Len) (b : Byte) : Reply.CacheIs c (bufWrite i b u) :=
  Reply.ensures_iff.2 fun _ hw => by
    obtain ⟨_, rfl⟩ := bufWrite_next hw
    exact h

/-! ### The gates, the polls and the bodies -/

theorem openGate_cache {start : Peripheral → Peripheral} (hstart : ∀ w, (start w).cache = w.cache) (isOpen : Bool)
    (fail : Response) : (openGate isOpen fail start u).cache = u.cache := by
  cases isOpen with
  | true => exact hstart u
  | false => rfl

theorem acceptGated_cache {start : Peripheral → Peripheral} (hstart : ∀ w, (start w).cache = w.cache) (h : u.cache = c)
    (d : Direction) (fail : Response) : Reply.CacheIs c (acceptGated d fail start u) := by
  rw [acceptGated]
  split
  · exact .next ((openGate_cache hstart _ _).trans h)
  · exact .next h

theorem gateStep_cache {start : Peripheral → Peripheral} (hstart : ∀ w, (start w).cache = w.cache) (h : u.cache = c)
    (d : Direction) (fail : Response) : Reply.CacheIs c (gateStep d fail start u) :=
  (regRead8_cache h .ctrlB).andThen fun _ hw => .next ((openGate_cache hstart _ _).trans hw)

theorem pollStep_cache (h : u.cache = c) (ready : Byte → Bool) (found : Phase) :
    Reply.CacheIs c (pollStep ready found u) :=
  (regRead8_cache h .ctrlA).andThen fun _ hw => .next (by split <;> exact hw)

theorem txDataStep_cache (h : u.cache = c) : Reply.CacheIs c (txDataStep u) :=
  (regWrite8_cache h .data u.x.dbyte).andThen fun _ hw => .next hw

theorem rxErrStep_cache (h : u.cache = c) : Reply.CacheIs c (rxErrStep u) :=
  (regRead8_cache h .ctrlA).andThen fun _ hw => .next hw

theorem rxDataStep_cache (h : u.cache = c) : Reply.CacheIs c (rxDataStep u) :=
  (regRead8_cache h .data).andThen fun _ hw => .next hw

theorem txnBufStep_cache (h : u.cache = c) (why : Refusal) : Reply.CacheIs c (txnBufStep why u) :=
  (bufRead_cache h why u.x.cnt).andThen fun _ hw => .next hw

theorem rxnBufStep_cache (h : u.cache = c) : Reply.CacheIs c (rxnBufStep u) :=
  (bufWrite_cache h u.x.cnt u.x.dbyte).andThen fun _ hw => .next hw

/-! ### The commands that never write the cache -/

theorem putcStart_cache (byte : Byte) (w : Peripheral) : (putcStart byte w).cache = w.cache := rfl

theorem getcStart_cache (w : Peripheral) : (getcStart w).cache = w.cache := rfl

theorem putnLoop_cache (w : Peripheral) : (putnLoop w).cache = w.cache := by rw [putnLoop]; split <;> rfl

theorem putnStart_cache (length : Len) (w : Peripheral) : (putnStart length w).cache = w.cache := putnLoop_cache _

theorem getnLoop_cache (w : Peripheral) : (getnLoop w).cache = w.cache := by rw [getnLoop]; split <;> rfl

theorem getnStart_cache (length : Len) (w : Peripheral) : (getnStart length w).cache = w.cache := getnLoop_cache _

theorem getsLoop_cache (w : Peripheral) : (getsLoop w).cache = w.cache := by rw [getsLoop]; split <;> rfl

theorem getsStart_cache (capacity : Len) (w : Peripheral) : (getsStart capacity w).cache = w.cache := getsLoop_cache _

theorem putsStart_cache (w : Peripheral) : (putsStart w).cache = w.cache := rfl

theorem putcStep_cache (h : u.cache = c) (byte : Byte) : Reply.CacheIs c (putcStep byte u) := by
  rw [putcStep]
  split
  next => exact acceptGated_cache (putcStart_cache byte) h _ _
  next => exact gateStep_cache (putcStart_cache byte) h _ _
  next => exact pollStep_cache h _ _
  next => exact (txDataStep_cache h).andThen fun _ hw => .next hw
  next => exact .fault _

theorem getcStep_cache (h : u.cache = c) : Reply.CacheIs c (getcStep u) := by
  rw [getcStep]
  split
  next => exact acceptGated_cache getcStart_cache h _ _
  next => exact gateStep_cache getcStart_cache h _ _
  next => exact pollStep_cache h _ _
  next => exact rxErrStep_cache h
  next => exact (rxDataStep_cache h).andThen fun _ hw => .next hw
  next => exact .fault _

theorem putnStep_cache (h : u.cache = c) (length : Len) : Reply.CacheIs c (putnStep length u) := by
  rw [putnStep]
  split
  next => exact acceptGated_cache (putnStart_cache length) h _ _
  next => exact gateStep_cache (putnStart_cache length) h _ _
  next => exact (txnBufStep_cache h _).andThen fun _ hw => .next hw
  next => exact pollStep_cache h _ _
  next => exact (txDataStep_cache h).andThen fun _ hw => .next ((putnLoop_cache _).trans hw)
  next => exact .fault _

theorem getnStep_cache (h : u.cache = c) (length : Len) : Reply.CacheIs c (getnStep length u) := by
  rw [getnStep]
  split
  next => exact acceptGated_cache (getnStart_cache length) h _ _
  next => exact gateStep_cache (getnStart_cache length) h _ _
  next => exact pollStep_cache h _ _
  next => exact rxErrStep_cache h
  next => exact (rxDataStep_cache h).andThen fun _ hw => .next hw
  next =>
    refine (rxnBufStep_cache h).andThen fun w hw => .next ?_
    split
    · exact hw
    · exact (getnLoop_cache w).trans hw
  next => exact .fault _

theorem getsStep_cache (h : u.cache = c) (capacity : Len) (delimiter : Byte) :
    Reply.CacheIs c (getsStep capacity delimiter u) := by
  rw [getsStep]
  split
  next => exact .refused _
  split
  next => exact acceptGated_cache (getsStart_cache capacity) h _ _
  next => exact gateStep_cache (getsStart_cache capacity) h _ _
  next => exact pollStep_cache h _ _
  next => exact rxErrStep_cache h
  next => exact (rxDataStep_cache h).andThen fun _ hw => .next hw
  next =>
    refine (rxnBufStep_cache h).andThen fun w hw => .next ?_
    split
    · exact hw
    · exact (getsLoop_cache w).trans hw
  next => exact (bufWrite_cache h _ _).andThen fun _ hw => .next hw
  next => exact .fault _

theorem putsStep_cache (h : u.cache = c) : Reply.CacheIs c (putsStep u) := by
  rw [putsStep]
  split
  next => exact acceptGated_cache putsStart_cache h _ _
  next => exact gateStep_cache putsStart_cache h _ _
  next => exact (txnBufStep_cache h _).andThen fun _ hw => .next (by split <;> exact hw)
  next => exact pollStep_cache h _ _
  next =>
    refine (txDataStep_cache h).andThen fun w hw => ?_
    split
    · exact .refused _
    · exact .next hw
  next => exact .fault _

theorem readBackEnd_cache (h : u.cache = c) (d : BitVec 16) : Reply.CacheIs c (readBackEnd d u) := by
  rw [readBackEnd]
  split
  · exact .next h
  · exact .fault _

theorem getconfigStep_cache (h : u.cache = c) : Reply.CacheIs c (getconfigStep u) := by
  rw [getconfigStep]
  split
  next => split <;> exact .next h
  next => exact (regRead8_cache h _).andThen fun _ hw => .next hw
  next => exact (regRead8_cache h _).andThen fun _ hw => .next hw
  next => exact (regRead8_cache h _).andThen fun _ hw => .next hw
  next =>
    split
    · exact (regRead16_cache h).andThen fun _ hw => readBackEnd_cache hw _
    · exact (regRead8_cache h _).andThen fun _ hw => .next hw
  next => exact (regRead8_cache h _).andThen fun _ hw => readBackEnd_cache hw _
  next => exact .fault _

theorem geterrorStep_cache (h : u.cache = c) : Reply.CacheIs c (geterrorStep u) := by
  rw [geterrorStep]
  split
  next => exact .next h
  next => exact (regRead8_cache h _).andThen fun _ hw => .next hw
  next => exact .fault _

/-- Rule R119: not even the two writes of Control B change the cache. -/
theorem flushrxStep_cache (h : u.cache = c) : Reply.CacheIs c (flushrxStep u) := by
  rw [flushrxStep]
  split
  next => split <;> exact .next h
  next => exact (regRead8_cache h _).andThen fun _ hw => .next (by split <;> exact hw)
  next => exact (regWrite8_cache h _ _).andThen fun _ hw => .next hw
  next => exact (regWrite8_cache h _ _).andThen fun _ hw => .next hw
  next => exact .fault _

/-! ### CONFIGURE -/

/-- Rule R94: after its last write CONFIGURE stores its operand, in the cached variant only. -/
theorem configureStep_cfgBOn_cache (d : Configuration) (hp : u.phase = .cfgBOn) :
    Reply.CacheIs (if u.params.cached then d else u.cache) (configureStep d u) := by
  simp only [configureStep, hp]
  refine (regWrite8_params_cache _ _).andThen fun w ⟨hparams, hcache⟩ => .next ?_
  rw [hparams]
  split
  · rfl
  · exact hcache

theorem configureStep_cache_of_ne (d : Configuration) (hp : u.phase ≠ .cfgBOn) (h : u.cache = c) :
    Reply.CacheIs c (configureStep d u) := by
  rw [configureStep]
  split
  next => exact .next h
  next => exact (regWrite8_cache h _ _).andThen fun _ hw => .next hw
  next => exact (regWrite8_cache h _ _).andThen fun _ hw => .next hw
  next => exact (regWrite8_cache h _ _).andThen fun _ hw => .next hw
  next =>
    split
    · exact (regWrite16_cache h _).andThen fun _ hw => .next hw
    · exact (regWrite8_cache h _ _).andThen fun _ hw => .next hw
  next => exact (regWrite8_cache h _ _).andThen fun _ hw => .next hw
  next hbOn => exact absurd hbOn hp
  next => exact .fault _

end Cache

/-! ### The machine -/

/-- What a step of command `i` leaves in the cache. -/
def Peripheral.cacheAfter (i : Instr) (u : Peripheral) : Configuration :=
  match i with
  | .configure c => if u.phase = .cfgBOn ∧ u.params.cached = true then c else u.cache
  | _ => u.cache

theorem configureStep_cacheAfter (d : Configuration) (u : Peripheral) :
    Reply.CacheIs (u.cacheAfter (.configure d)) (configureStep d u) := by
  by_cases hp : u.phase = .cfgBOn
  · simpa only [Peripheral.cacheAfter, hp, true_and] using configureStep_cfgBOn_cache d hp
  · simpa only [Peripheral.cacheAfter, hp, false_and, if_false] using configureStep_cache_of_ne d hp rfl

theorem exec_cacheAfter (i : Instr) (s : State) :
    Reply.Ensures (fun t => t.self.cache = s.self.cacheAfter i) (exec i s) := by
  cases i with
  | configure d => exact State.onSelf_ensures (configureStep_cacheAfter d s.self)
  | getconfig => exact State.onSelf_ensures (getconfigStep_cache rfl)
  | geterror => exact State.onSelf_ensures (geterrorStep_cache rfl)
  | putc byte => exact State.onSelf_ensures (putcStep_cache rfl byte)
  | getc => exact State.onSelf_ensures (getcStep_cache rfl)
  | putn length => exact State.onSelf_ensures (putnStep_cache rfl length)
  | getn length => exact State.onSelf_ensures (getnStep_cache rfl length)
  | gets capacity delimiter => exact State.onSelf_ensures (getsStep_cache rfl capacity delimiter)
  | puts => exact State.onSelf_ensures (putsStep_cache rfl)
  | flushrx => exact State.onSelf_ensures (flushrxStep_cache rfl)

theorem Peripheral.cacheAfter_cfgBOn (c : Configuration) {u : Peripheral} (hp : u.phase = .cfgBOn)
    (hc : u.params.cached = true) : u.cacheAfter (.configure c) = c :=
  if_pos ⟨hp, hc⟩

theorem Peripheral.cacheAfter_of_other {i : Instr} {u : Peripheral}
    (h : (∀ c, i ≠ .configure c) ∨ u.phase ≠ .cfgBOn ∨ u.params.cached = false) : u.cacheAfter i = u.cache := by
  cases i with
  | configure c =>
    refine if_neg fun ⟨hp, hc⟩ => ?_
    obtain hi | hp' | hc' := h
    · exact hi c rfl
    · exact hp' hp
    · exact absurd (hc.symm.trans hc') (by decide)
  | _ => rfl

/-- Settles O29: the cache after a step is known for every command, by cases on the command and on its phase; only the last
write of CONFIGURE is followed by an update of it. -/
theorem onlyConfigureWritesTheCache : Obligations.OnlyConfigureWritesTheCache := by
  intro i s t ht
  have hcache : t.self.cache = s.self.cacheAfter i := Reply.ensures_iff.1 (exec_cacheAfter i s) t ht
  refine ⟨?_, fun h => hcache.trans (Peripheral.cacheAfter_of_other h)⟩
  rintro c rfl hp hc
  exact hcache.trans (Peripheral.cacheAfter_cfgBOn c hp hc)

end Sys2Proof.Machine
end

section
/-! SUPPORT. Rules R67 to R75, R80 and R81: the packed Configuration and the command words. Each field of a word is read back
where the encoder puts it, and a word whose other bits are 0 is put together again from its fields. -/

namespace Sys2Proof

/-! ### The enumerants and their numbers (rules R73 and R74) -/

@[simp] theorem StopBits.ofCode_code (s : StopBits) : StopBits.ofCode s.code = s := by cases s <;> rfl

@[simp] theorem StopBits.code_ofCode (v : BitVec 1) : (StopBits.ofCode v).code = v := by
  revert v; decide

@[simp] theorem Parity.ofCode_code (p : Parity) : Parity.ofCode p.code = some p := by cases p <;> rfl

theorem Parity.code_of_ofCode {v : BitVec 2} {p : Parity} (h : Parity.ofCode v = some p) : p.code = v := by
  revert v p
  intro v p
  revert v
  cases p <;> decide

theorem Parity.ofCode_eq_none_iff (v : BitVec 2) : Parity.ofCode v = Option.none ↔ v = 1 := by
  revert v; decide

/-! ### The packed Configuration (rule R72) -/

/-- A bit as a field of one bit. -/
theorem ofBool_bit {w : Nat} (v : BitVec w) (i : Nat) : BitVec.ofBool (bit v i) = v.extractLsb' i 1 := by
  ext j hj
  obtain rfl : j = 0 := by omega
  simp

theorem bit_eq_of_extract {w i : Nat} {v : BitVec w} {b : Bool} (h : v.extractLsb' i 1 = BitVec.ofBool b) :
    bit v i = b := by
  simpa [← ofBool_bit, BitVec.ofBool_eq_iff_eq] using h

/-- What each field of a value in the layout of rule R72 is read as. -/
theorem packed_fields (p : BitVec 2) (s : BitVec 1) (t r x : Bool) (d : BitVec 12) :
    let v : BitVec 18 := p ++ s ++ BitVec.ofBool t ++ BitVec.ofBool r ++ BitVec.ofBool x ++ d
    v.extractLsb' 16 2 = p ∧ v.extractLsb' 15 1 = s ∧ bit v 14 = t ∧ bit v 13 = r ∧ bit v 12 = x ∧
      v.extractLsb' 0 12 = d := by
  refine ⟨?_, ?_, bit_eq_of_extract ?_, bit_eq_of_extract ?_, bit_eq_of_extract ?_, ?_⟩ <;>
    simp [-Nat.reduceAdd, BitVec.extractLsb'_append_eq_of_le, BitVec.extractLsb'_append_eq_of_add_le]

theorem Configuration.unpack_pack (c : Configuration) : Configuration.unpack c.pack = some c := by
  obtain ⟨hp, hs, ht, hr, hx, hd⟩ := packed_fields c.parity.code c.stopBits.code c.transmitEnabled c.receiveEnabled
    c.useDoubleSpeed c.baudDivisor
  simp only [Configuration.unpack, Configuration.pack, hp, hs, ht, hr, hx, hd, Parity.ofCode_code,
    StopBits.ofCode_code]

/-- A Configuration in packed form, put together from the fields it was unpacked from. -/
theorem Configuration.pack_of_unpack {v : BitVec 18} {c : Configuration} (h : Configuration.unpack v = some c) :
    c.pack = v := by
  unfold Configuration.unpack at h
  split at h
  · cases h
  · rename_i p hp
    cases h
    simp only [Configuration.pack, Parity.code_of_ofCode hp, StopBits.code_ofCode, ofBool_bit]
    iterate 5 rw [BitVec.extractLsb'_append_extractLsb'_eq_extractLsb' (by decide)]
    exact BitVec.extractLsb'_eq_self

theorem Configuration.unpack_eq_none_iff (v : BitVec 18) :
    Configuration.unpack v = none ↔ v.extractLsb' 16 2 = 1 := by
  rw [← Parity.ofCode_eq_none_iff, Configuration.unpack]
  split
  next h => simp [h]
  next h => simp [h]

/-- Settles O5: the packed form is its six fields side by side, so each can be read back, and only the parity field has a
pattern that no enumerant has. -/
theorem packedConfigurationRoundTrip : Obligations.PackedConfigurationRoundTrip :=
  ⟨Configuration.unpack_pack, fun _ _ => Configuration.pack_of_unpack, Configuration.unpack_eq_none_iff⟩

/-! ### The formats (rule R68): when each decodes, and to what -/

section Formats

variable {w : CommandWord} {i : Instr}

theorem decodeN_eq_ok {j : Instr} : decodeN j w = .ok i ↔ w.extractLsb' 0 28 = 0 ∧ j = i := by
  unfold decodeN; split <;> simp_all

theorem decodeC_eq_ok : decodeC w = .ok i ↔
    w.extractLsb' 18 10 = 0 ∧ ∃ c, Configuration.unpack (w.extractLsb' 0 18) = some c ∧ .configure c = i := by
  unfold decodeC; split
  · split <;> simp_all
  · simp_all

theorem decodeB_eq_ok {f : Byte → Instr} :
    decodeB f w = .ok i ↔ w.extractLsb' 8 20 = 0 ∧ f (w.extractLsb' 0 8) = i := by
  unfold decodeB; split <;> simp_all

theorem decodeL_eq_ok {f : Len → Instr} :
    decodeL f w = .ok i ↔ w.extractLsb' 16 12 = 0 ∧ f (w.extractLsb' 0 16) = i := by
  unfold decodeL; split <;> simp_all

theorem decodeS_eq_ok {f : Len → Byte → Instr} :
    decodeS f w = .ok i ↔ w.extractLsb' 24 4 = 0 ∧ f (w.extractLsb' 0 16) (w.extractLsb' 16 8) = i := by
  unfold decodeS; split <;> simp_all

end Formats

/-! ### Encoding, then decoding -/

@[simp] theorem opcodeOf_encode (i : Instr) : opcodeOf (encode i) = i.opcode := BitVec.extractLsb'_append_eq_left

/-- A field of the word below bit 28 is a field of the operand bits. -/
theorem encode_extract_operand (i : Instr) {start len : Nat} (h : start + len ≤ 28) :
    (encode i).extractLsb' start len = i.operandBits.extractLsb' start len :=
  BitVec.extractLsb'_append_eq_of_add_le h

theorem decode_encode (i : Instr) : decode (encode i) = .ok i := by
  have hop := congrArg BitVec.toNat (opcodeOf_encode i)
  cases i <;> simp only [Instr.opcode, BitVec.toNat_ofNat, Nat.reducePow, Nat.reduceMod] at hop <;>
    simp only [decode, hop]
  case configure c =>
    refine decodeC_eq_ok.2 ⟨?_, c, ?_, rfl⟩
    · rw [encode_extract_operand _ (by decide)]; exact BitVec.extractLsb'_append_eq_left
    · rw [encode_extract_operand _ (by decide), Instr.operandBits, BitVec.extractLsb'_append_eq_right]
      exact c.unpack_pack
  case getconfig => decide
  case geterror => decide
  case getc => decide
  case puts => decide
  case flushrx => decide
  case putc byte =>
    refine decodeB_eq_ok.2 ⟨?_, congrArg Instr.putc ?_⟩ <;> rw [encode_extract_operand _ (by decide)]
    · exact BitVec.extractLsb'_append_eq_left
    · exact BitVec.extractLsb'_append_eq_right
  case putn length =>
    refine decodeL_eq_ok.2 ⟨?_, congrArg Instr.putn ?_⟩ <;> rw [encode_extract_operand _ (by decide)]
    · exact BitVec.extractLsb'_append_eq_left
    · exact BitVec.extractLsb'_append_eq_right
  case getn length =>
    refine decodeL_eq_ok.2 ⟨?_, congrArg Instr.getn ?_⟩ <;> rw [encode_extract_operand _ (by decide)]
    · exact BitVec.extractLsb'_append_eq_left
    · exact BitVec.extractLsb'_append_eq_right
  case gets capacity delimiter =>
    refine decodeS_eq_ok.2 ⟨?_, congrArg₂ Instr.gets ?_ ?_⟩ <;> rw [encode_extract_operand _ (by decide)] <;>
      simp [-Nat.reduceAdd, Instr.operandBits, BitVec.extractLsb'_append_eq_of_le,
        BitVec.extractLsb'_append_eq_of_add_le]

/-- Settles O2: the decoder finds the opcode in bits 31:28, and every operand field where the encoder put it. -/
theorem decodeOfEncode : Obligations.DecodeOfEncode := decode_encode

/-! ### Decoding, then encoding -/

/-- A word is its opcode and its operand bits side by side. -/
theorem encode_eq_of_parts {w : CommandWord} {i : Instr} (hop : i.opcode = opcodeOf w)
    (hbits : i.operandBits = w.extractLsb' 0 28) : encode i = w := by
  rw [encode, hop, hbits, opcodeOf]
  exact BitVec.extractLsb'_append_extractLsb' (w := 4) (len := 28)

/-- Must-be-zero bits above a field: the operand bits are the field alone. -/
theorem zero_append_extract {w : CommandWord} {n m : Nat} (h : w.extractLsb' n m = 0) :
    0#m ++ w.extractLsb' 0 n = w.extractLsb' 0 (m + n) := by
  rw [← BitVec.extractLsb'_append_extractLsb'_eq_extractLsb' (Nat.zero_add n).symm, h]
  rfl

theorem encode_of_decode {w : CommandWord} {i : Instr} (h : decode w = .ok i) : encode i = w := by
  have hop {k : Nat} (hk : k < 16) (e : (opcodeOf w).toNat = k) : BitVec.ofNat 4 k = opcodeOf w := by
    rw [← e, BitVec.ofNat_toNat, BitVec.setWidth_eq]
  unfold decode at h
  split at h
  next e =>
    obtain ⟨hz, c, hc, rfl⟩ := decodeC_eq_ok.1 h
    refine encode_eq_of_parts (hop (by decide) e) ?_
    rw [Instr.operandBits, Configuration.pack_of_unpack hc]; exact zero_append_extract hz
  next e => obtain ⟨hz, rfl⟩ := decodeN_eq_ok.1 h; exact encode_eq_of_parts (hop (by decide) e) hz.symm
  next e => obtain ⟨hz, rfl⟩ := decodeN_eq_ok.1 h; exact encode_eq_of_parts (hop (by decide) e) hz.symm
  next e =>
    obtain ⟨hz, rfl⟩ := decodeB_eq_ok.1 h
    exact encode_eq_of_parts (hop (by decide) e) (zero_append_extract hz)
  next e => obtain ⟨hz, rfl⟩ := decodeN_eq_ok.1 h; exact encode_eq_of_parts (hop (by decide) e) hz.symm
  next e =>
    obtain ⟨hz, rfl⟩ := decodeL_eq_ok.1 h
    exact encode_eq_of_parts (hop (by decide) e) (zero_append_extract hz)
  next e =>
    obtain ⟨hz, rfl⟩ := decodeL_eq_ok.1 h
    exact encode_eq_of_parts (hop (by decide) e) (zero_append_extract hz)
  next e =>
    obtain ⟨hz, rfl⟩ := decodeS_eq_ok.1 h
    refine encode_eq_of_parts (hop (by decide) e) ?_
    rw [Instr.operandBits, BitVec.append_assoc,
      BitVec.extractLsb'_append_extractLsb'_eq_extractLsb' (start₁ := 0) (start₂ := 16) (by decide)]
    exact zero_append_extract hz
  next e => obtain ⟨hz, rfl⟩ := decodeN_eq_ok.1 h; exact encode_eq_of_parts (hop (by decide) e) hz.symm
  next e => obtain ⟨hz, rfl⟩ := decodeN_eq_ok.1 h; exact encode_eq_of_parts (hop (by decide) e) hz.symm
  next => cases h

/-- Settles O3: opcode, must-be-zero bits and operand fields make up the whole word. -/
theorem encodeOfDecode : Obligations.EncodeOfDecode := fun _ _ => encode_of_decode

/-! ### The reserved words (rules R71, R80 and R81) -/

/-- The must-be-zero bits of a format with `n` operand bits, told with the format's operand mask. -/
theorem extra_eq_zero_iff {w mask : CommandWord} {n m : Nat} (hn : n + m = 28)
    (hmask : ∀ i < 32, bit mask i = decide (i < n)) :
    (w &&& ~~~ mask) &&& 0x0FFFFFFF = 0 ↔ w.extractLsb' n m = 0 := by
  have hlow : ∀ i < 32, bit (0x0FFFFFFF : CommandWord) i = decide (i < 28) := by decide
  have hbit (i : Nat) (hi : i < 32) :
      bit ((w &&& ~~~ mask) &&& 0x0FFFFFFF) i = (bit w i && !decide (i < n) && decide (i < 28)) := by
    rw [← hmask i hi, ← hlow i hi]
    simp [hi]
  constructor
  · intro h
    refine BitVec.eq_of_getLsbD_eq fun i hi => ?_
    have hw := hbit (n + i) (by omega)
    rw [h] at hw
    simpa [-BitVec.getLsbD_eq_getElem, hi, show n + i < 28 by omega] using hw
  · intro h
    refine BitVec.eq_of_getLsbD_eq fun i hi => (hbit i hi).trans ?_
    by_cases hin : n ≤ i ∧ i < 28
    · have hw : bit w i = false := by
        simpa [-BitVec.getLsbD_eq_getElem, hin, show i - n < m by omega] using congrArg (bit · (i - n)) h
      rw [hw, Bool.false_and, Bool.false_and]
      exact BitVec.getLsbD_zero.symm
    · have hout : (!decide (i < n) && decide (i < 28)) = false := by simpa using hin
      rw [Bool.and_assoc, hout, Bool.and_false]
      exact BitVec.getLsbD_zero.symm

/-- The answer of a format that rejects its must-be-zero bits and nothing else. -/
theorem format_answer {w mask : CommandWord} {n m : Nat} {j : Instr} {d : Except Reject Instr} (hn : n + m = 28)
    (hmask : ∀ i < 32, bit mask i = decide (i < n))
    (hd : d = if w.extractLsb' n m = 0 then .ok j else .error .mustBeZero) :
    if (w &&& ~~~ mask) &&& 0x0FFFFFFF ≠ 0 then d = .error .mustBeZero
    else ∃ i, d = .ok i ∧ i.opcode.toNat = j.opcode.toNat := by
  have hx := extra_eq_zero_iff (w := w) hn hmask
  by_cases hz : w.extractLsb' n m = 0
  · rw [if_neg (not_not.2 (hx.2 hz))]
    exact ⟨j, by rw [hd, if_pos hz], rfl⟩
  · rw [if_pos (mt hx.1 hz), hd, if_neg hz]

/-- The answer of CONFIGURE's format, which also rejects the parity pattern 1 (rule R81). -/
theorem decodeC_answer (w : CommandWord) :
    if (w &&& ~~~ 0x0003FFFF) &&& 0x0FFFFFFF ≠ 0 then decodeC w = .error .mustBeZero
    else if w.extractLsb' 16 2 = 1 then decodeC w = .error .reservedParity
    else ∃ i, decodeC w = .ok i ∧ i.opcode.toNat = 1 := by
  have hnone : Configuration.unpack (w.extractLsb' 0 18) = none ↔ w.extractLsb' 16 2 = 1 := by
    rw [Configuration.unpack_eq_none_iff, BitVec.extractLsb'_extractLsb'_of_le (by decide)]
  have hx := extra_eq_zero_iff (w := w) (mask := 0x0003FFFF) (n := 18) (m := 10) rfl (by decide)
  rw [decodeC]
  by_cases hz : w.extractLsb' 18 10 = 0#10
  · rw [if_neg (not_not.2 (hx.2 hz)), if_pos hz]
    cases hc : Configuration.unpack (w.extractLsb' 0 18) with
    | none => exact (if_pos (hnone.1 hc)).mpr rfl
    | some c =>
      rw [if_neg (mt hnone.2 (by simp [hc]))]
      exact ⟨_, rfl, rfl⟩
  · rw [if_pos (mt hx.1 hz), if_neg hz]

/-- Settles O4: by the sixteen values of bits 31:28, each with the answer of its format. -/
theorem reservedWordsRejected : Obligations.ReservedWordsRejected := by
  intro w
  have hlt : (w.extractLsb' 28 4).toNat < 16 := (w.extractLsb' 28 4).isLt
  simp only [decode, opcodeOf]
  generalize (w.extractLsb' 28 4).toNat = op at hlt ⊢
  interval_cases op <;> simp only [Nat.reduceEqDiff, Nat.reduceLeDiff, or_self, false_and, true_and, if_true, if_false,
    or_false, false_or]
  · exact decodeC_answer w
  · exact format_answer (n := 0) (m := 28) (j := .getconfig) rfl (by decide) rfl
  · exact format_answer (n := 0) (m := 28) (j := .geterror) rfl (by decide) rfl
  · exact format_answer (n := 8) (m := 20) (j := .putc _) rfl (by decide) rfl
  · exact format_answer (n := 0) (m := 28) (j := .getc) rfl (by decide) rfl
  · exact format_answer (n := 16) (m := 12) (j := .putn _) rfl (by decide) rfl
  · exact format_answer (n := 16) (m := 12) (j := .getn _) rfl (by decide) rfl
  · exact format_answer (n := 24) (m := 4) (j := .gets _ _) rfl (by decide) rfl
  · exact format_answer (n := 0) (m := 28) (j := .puts) rfl (by decide) rfl
  · exact format_answer (n := 0) (m := 28) (j := .flushrx) rfl (by decide) rfl

/-- Settles O1: each word is decoded. -/
theorem sampleWordsDecode : Obligations.SampleWordsDecode := by
  unfold Obligations.SampleWordsDecode; decide

end Sys2Proof
end

section
/-! SUPPORT. Rules R79, R86, R90, R91 and R96: the encoders of 40_configuration.md against the decoder, the working register `cfg`
of the read-back, and the algebra of ErrorMasks. -/

namespace Sys2Proof.Machine

/-! ### The Control A encoder and the enable bits (rules R85 and R86) -/

theorem encA_eq (c : Configuration) : encA c = if c.useDoubleSpeed then 0x42 else 0x40 := by
  unfold encA; cases c.useDoubleSpeed <;> rfl

theorem encA_bits (c : Configuration) :
    bit (encA c) 6 = true ∧ bit (encA c) 1 = c.useDoubleSpeed ∧ bit (encA c) 0 = false := by
  rw [encA_eq]; cases c.useDoubleSpeed <;> decide

/-- Settles O7: the two values, and their bits. -/
theorem controlAEncoder : Obligations.ControlAEncoder := fun c =>
  have ⟨h6, _, h0⟩ := encA_bits c
  ⟨encA_eq c, h6, h0⟩

@[simp] theorem encB_bit_receive (c : Configuration) : bit (encB c) 4 = c.receiveEnabled := by
  rw [encB_eq_add]; cases c.receiveEnabled <;> cases c.transmitEnabled <;> rfl

@[simp] theorem encB_bit_transmit (c : Configuration) : bit (encB c) 3 = c.transmitEnabled := by
  rw [encB_eq_add]; cases c.receiveEnabled <;> cases c.transmitEnabled <;> rfl

/-! ### The decoder (rules R90 and R91) -/

/-- Read-back of what the encoders give, whatever Control A holds beside double-speed. -/
theorem decCfg_encoded (c : Configuration) (csz8 : BitVec 2) {a : Byte} (ha : bit a 1 = c.useDoubleSpeed) :
    decCfg a (encB c) (encC csz8 c) (encBaud c) = some c := by
  simp only [decCfg, ha, encC_extract_parity, encC_extract_stopBits, encB_bit_receive, encB_bit_transmit,
    encBaud_extract_divisor, Parity.ofCode_code, StopBits.ofCode_code]

/-- Settles O9: the status bits are not double-speed's bit, and every other field is where the decoder reads it. -/
theorem readBackRoundTrip : Obligations.ReadBackRoundTrip := by
  intro c csz8 status hs
  have h1 : bit status 1 = false := by simpa using congrArg (bit · 1) hs
  refine decCfg_encoded c csz8 ?_
  obtain ⟨_, hx, _⟩ := encA_bits c
  exact BitVec.getLsbD_or.trans ((congrArg₂ or hx h1).trans (Bool.or_false _))

/-- The six fields the decoder takes, in the packed layout of rule R72. -/
def packedRead (a b k : Byte) (d : BitVec 16) : BitVec 18 :=
  k.extractLsb' 4 2 ++ k.extractLsb' 3 1 ++ BitVec.ofBool (bit b 3) ++ BitVec.ofBool (bit b 4)
    ++ BitVec.ofBool (bit a 1) ++ d.extractLsb' 0 12

theorem decCfg_eq_unpack (a b k : Byte) (d : BitVec 16) : decCfg a b k d = Configuration.unpack (packedRead a b k d) := by
  obtain ⟨hp, hs, ht, hr, hx, hd⟩ := packed_fields (k.extractLsb' 4 2) (k.extractLsb' 3 1) (bit b 3) (bit b 4) (bit a 1)
    (d.extractLsb' 0 12)
  unfold decCfg Configuration.unpack packedRead
  rw [hp]
  cases Parity.ofCode (k.extractLsb' 4 2) with
  | none => rfl
  | some q => simp only [hs, ht, hr, hx, hd]

theorem decCfg_eq_none_iff (a b k : Byte) (d : BitVec 16) : decCfg a b k d = none ↔ k.extractLsb' 4 2 = 1 := by
  rw [decCfg_eq_unpack, Configuration.unpack_eq_none_iff, packedRead, (packed_fields _ _ _ _ _ _).1]

/-- Settles O10: the decoder is the unpacking of the six fields it takes. -/
theorem readBackTakesTheseBits : Obligations.ReadBackTakesTheseBits := fun a b k d =>
  ⟨by rw [decCfg_eq_unpack]; simp only [packedRead, ofBool_bit], decCfg_eq_none_iff a b k d⟩

/-! ### The working register `cfg` of the read-back (rules R17 and R96) -/

/-- The four steps put together the packed form of what the decoder takes. -/
theorem cfg_assembled (a b k : Byte) (d : BitVec 16) :
    cfgFromBaud (cfgFromC (cfgFromB (cfgFromA a) b) k) d = packedRead a b k d := by
  have hp := (k.extractLsb' 4 2).isLt
  have hs := (k.extractLsb' 3 1).isLt
  have ht := (BitVec.ofBool (bit b 3)).isLt
  have hr := (BitVec.ofBool (bit b 4)).isLt
  have hx := (BitVec.ofBool (bit a 1)).isLt
  have hd := (d.extractLsb' 0 12).isLt
  unfold cfgFromBaud cfgFromC cfgFromB cfgFromA packedRead
  generalize k.extractLsb' 4 2 = p at *
  generalize k.extractLsb' 3 1 = s at *
  generalize BitVec.ofBool (bit b 3) = t at *
  generalize BitVec.ofBool (bit b 4) = r at *
  generalize BitVec.ofBool (bit a 1) = x at *
  generalize d.extractLsb' 0 12 = d at *
  apply BitVec.eq_of_toNat_eq
  simp only [Laws.EncodingMatchesTable.toNat_append, BitVec.extractLsb'_toNat, Nat.shiftRight_eq_div_pow, BitVec.toNat_ofNat]
  omega

/-- Settles O13: what is assembled is the packed form of the fields the decoder takes. -/
theorem assembledConfigurationIsDecoded : Obligations.AssembledConfigurationIsDecoded := fun a b k d => by
  rw [cfg_assembled, decCfg_eq_unpack]

theorem cfgFromC_parity (cfg : BitVec 18) (k : Byte) : (cfgFromC cfg k).extractLsb' 16 2 = k.extractLsb' 4 2 := by
  rw [cfgFromC, BitVec.extractLsb'_append_eq_of_le (by decide)]
  exact BitVec.extractLsb'_append_eq_left

/-- The last read of the read-back decides nothing about the parity: it is a fault exactly when the pattern read is 1. -/
theorem unpack_cfgFromBaud_eq_none_iff (cfg : BitVec 18) (d : BitVec 16) :
    Configuration.unpack (cfgFromBaud cfg d) = none ↔ cfg.extractLsb' 16 2 = 1 := by
  have h : (cfgFromBaud cfg d).extractLsb' 16 2 = cfg.extractLsb' 16 2 := by
    rw [cfgFromBaud, BitVec.extractLsb'_append_eq_of_le (by decide)]
    ext i hi
    simp [show 4 + i < 6 by omega, ← Nat.add_assoc]
  rw [Configuration.unpack_eq_none_iff, h]

/-! ### ErrorMasks under the aggregator (rule R79) -/

theorem legalStatus_iff (v : Byte) :
    legalStatus v = true ↔ v = ErrorMask.disabled ∨ v &&& ErrorMask.hardware = v := by
  simp [legalStatus]

theorem legalStatus_of_hardware {v : Byte} (h : v &&& ErrorMask.hardware = v) : legalStatus v = true :=
  (legalStatus_iff v).2 (.inr h)

theorem aggregate_hardware {a b : Byte} (ha : a &&& ErrorMask.hardware = a) (hb : b &&& ErrorMask.hardware = b) :
    aggregate a b &&& ErrorMask.hardware = aggregate a b := by
  rw [aggregate, BitVec.and_or_distrib_right, ha, hb]

theorem decErr_hardware (a : Byte) : decErr a &&& ErrorMask.hardware = decErr a := by
  rw [decErr, BitVec.and_assoc, BitVec.and_self]

/-- Settles O12: the aggregator is the bitwise OR, the hardware flags are closed under it, and `DISABLED` is not one of them. -/
theorem errorMaskAlgebra : Obligations.ErrorMaskAlgebra := by
  intro a b c
  refine ⟨(BitVec.or_assoc _ _ _).symm, BitVec.or_comm _ _, none_aggregate a, BitVec.or_self, ?_⟩
  intro ha hb hna hnb
  have h := aggregate_hardware (((legalStatus_iff a).1 ha).resolve_left hna) (((legalStatus_iff b).1 hb).resolve_left hnb)
  refine ⟨legalStatus_of_hardware h, fun hd => ?_⟩
  rw [hd] at h
  exact absurd h (by decide)

end Sys2Proof.Machine
end

section
/-! SUPPORT. Rules R19 to R21: everything a step of a command can do at its peripheral, said once. `Peripheral.Moves` lists the
ways a step goes on, `Peripheral.Faults` and `Peripheral.Refuses` the ways it stops; the invariants and the frame statements are
proved by cases on them. -/

namespace Sys2Proof

open Machine

/-! ### One step of a command at one peripheral -/

/-- The step of a command at its peripheral. -/
def Instr.act : Instr → Peripheral → Reply Peripheral
  | .configure c => configureStep c
  | .getconfig => getconfigStep
  | .geterror => geterrorStep
  | .putc byte => putcStep byte
  | .getc => getcStep
  | .putn length => putnStep length
  | .getn length => getnStep length
  | .gets capacity delimiter => getsStep capacity delimiter
  | .puts => putsStep
  | .flushrx => flushrxStep

/-- The gated commands (rules R100 and R101). -/
abbrev Instr.gated (i : Instr) : Bool := i.transmits || i.receives

/-- The direction a gated command checks. -/
def Instr.direction (i : Instr) : Direction := if i.transmits then .transmit else .receive

end Sys2Proof

namespace Sys2Proof.Machine

theorem exec_eq_onSelf (i : Instr) (s : State) : exec i s = s.onSelf i.act := by cases i <;> rfl

/-- `gateOpen` names the gate of the variant at hand. -/
theorem gateOpen_eq (i : Instr) (u : Peripheral) :
    i.gateOpen u = if u.params.cached then i.direction.inCache u.cache else i.direction.inCtrlB u.uart.ctrlB := by
  unfold Instr.gateOpen Instr.direction
  cases i.transmits <;> cases u.params.cached <;> rfl

/-! ### The gates, the same for all gated commands (rules R100, R101, R105, R106 and R110 to R113) -/

theorem putnStart_eq (length : Len) : putnStart length = (Instr.putn length).started := by
  funext u
  rw [putnStart, putnLoop, Instr.started]
  by_cases h : length = 0
  · rw [if_pos h, h]; rfl
  · rw [if_neg h]; exact if_pos ((BitVec.pos_iff_ne_zero length).2 h)

theorem getnStart_eq (length : Len) : getnStart length = (Instr.getn length).started := by
  funext u
  rw [getnStart, getnLoop, Instr.started]
  by_cases h : length = 0
  · rw [if_pos h, h]; rfl
  · rw [if_neg h]; exact if_pos ((BitVec.pos_iff_ne_zero length).2 h)

theorem getsStart_eq {capacity : Len} (delimiter : Byte) (h : capacity ≠ 0) :
    getsStart capacity = (Instr.gets capacity delimiter).started := by
  funext u
  have hlt : (0 : Len) < capacity - 1 ↔ ¬ capacity = 1 := by revert h; bv_omega
  simp only [getsStart, getsLoop, Instr.started, Peripheral.setX_x, hlt]
  by_cases h1 : capacity = 1
  · rw [if_neg (not_not.2 h1), if_pos h1]; rfl
  · rw [if_pos h1, if_neg h1]; rfl

/-- In `IDLE` a gated command is accepted at its gate. -/
theorem act_gated_idle {i : Instr} (hg : i.gated = true) (hi : i.wf = true) {u : Peripheral} (hp : u.phase = .idle) :
    i.act u = acceptGated i.direction i.disabledResponse i.started u := by
  cases i with
  | putc byte => simp only [Instr.act, putcStep, hp]; rfl
  | getc => simp only [Instr.act, getcStep, hp]; rfl
  | putn length => simp only [Instr.act, putnStep, hp, putnStart_eq]; rfl
  | getn length => simp only [Instr.act, getnStep, hp, getnStart_eq]; rfl
  | gets capacity delimiter =>
    have hc : capacity ≠ 0 := by simpa [Instr.wf] using hi
    simp only [Instr.act, getsStep, hp, hc, if_false, getsStart_eq delimiter hc]; rfl
  | puts => simp only [Instr.act, putsStep, hp]; rfl
  | _ => cases hg

/-- In `GATE_B` a gated command reads Control B. -/
theorem act_gateB {i : Instr} (hg : i.gated = true) (hi : i.wf = true) {u : Peripheral} (hp : u.phase = .gateB) :
    i.act u = gateStep i.direction i.disabledResponse i.started u := by
  cases i with
  | putc byte => simp only [Instr.act, putcStep, hp]; rfl
  | getc => simp only [Instr.act, getcStep, hp]; rfl
  | putn length => simp only [Instr.act, putnStep, hp, putnStart_eq]; rfl
  | getn length => simp only [Instr.act, getnStep, hp, getnStart_eq]; rfl
  | gets capacity delimiter =>
    have hc : capacity ≠ 0 := by simpa [Instr.wf] using hi
    simp only [Instr.act, getsStep, hp, hc, if_false, getsStart_eq delimiter hc]; rfl
  | puts => simp only [Instr.act, putsStep, hp]; rfl
  | _ => cases hg

/-! ### What a step can do -/

/-- The ways a step of a command goes on: the command, its phase and what the access found, with the peripheral it leaves. -/
inductive Peripheral.Moves (u : Peripheral) : Instr → Peripheral → Prop
  -- CONFIGURE (rules R92 to R94)
  | configure {c} (hp : u.phase = .idle) : u.Moves (.configure c) (u.goto .cfgBOff)
  | cfgBOff {c} (hw : u.params.wf = true) (hp : u.phase = .cfgBOff) :
      u.Moves (.configure c) (((u.setUart (u.uart.writeCtrlB bOff)).emit (.w8 .ctrlB bOff)).goto .cfgA)
  | cfgA {c} (hw : u.params.wf = true) (hp : u.phase = .cfgA) :
      u.Moves (.configure c) (((u.setUart (u.uart.writeCtrlA (encA c))).emit (.w8 .ctrlA (encA c))).goto .cfgC)
  | cfgC {c} (hw : u.params.wf = true) (hp : u.phase = .cfgC) :
      u.Moves (.configure c) (((u.setUart (u.uart.writeCtrlC (encC u.params.csz8 c))).emit
        (.w8 .ctrlC (encC u.params.csz8 c))).goto .cfgBaud)
  | cfgBaud {c} (hw : u.params.wf = true) (hp : u.phase = .cfgBaud) (hbus : u.params.bus = .whole) :
      u.Moves (.configure c) (((u.setUart (u.uart.writeBaud (encBaud c))).emit (.w16 (encBaud c))).goto .cfgBOn)
  | cfgBaudHigh {c} (hw : u.params.wf = true) (hp : u.phase = .cfgBaud) (hbus : u.params.bus = .split) :
      u.Moves (.configure c) (((u.setUart (u.uart.writeBaudHigh (highByte (encBaud c)))).emit
        (.w8 .baudHigh (highByte (encBaud c)))).goto .cfgBaudLow)
  | cfgBaudLow {c} (hw : u.params.wf = true) (hp : u.phase = .cfgBaudLow) :
      u.Moves (.configure c) (((u.setUart (u.uart.writeBaudLow (lowByte (encBaud c)))).emit
        (.w8 .baudLow (lowByte (encBaud c)))).goto .cfgBOn)
  | cfgBOn {c} (hw : u.params.wf = true) (hp : u.phase = .cfgBOn) :
      u.Moves (.configure c) ((((u.setUart (u.uart.writeCtrlB (encB c))).emit (.w8 .ctrlB (encB c))).setCache
        (if u.params.cached then c else u.cache)).complete (Response.ofStatus ErrorMask.none))
  -- GETCONFIG (rule R96)
  | cacheAnswered (hp : u.phase = .idle) (hc : u.params.cached = true) :
      u.Moves .getconfig (u.complete (Response.ofConfig ErrorMask.none u.cache.pack))
  | getconfig (hp : u.phase = .idle) (hc : u.params.cached = false) : u.Moves .getconfig (u.goto .rbA)
  | rbA (hw : u.params.wf = true) (hp : u.phase = .rbA) :
      u.Moves .getconfig ((((u.setUart u.uart.sawCtrlA).emit (.r8 .ctrlA u.uart.ctrlA)).setX
        { u.x with tmp := u.uart.ctrlA.setWidth 16, cfg := cfgFromA u.uart.ctrlA }).goto .rbB)
  | rbB (hw : u.params.wf = true) (hp : u.phase = .rbB) :
      u.Moves .getconfig (((u.emit (.r8 .ctrlB u.uart.ctrlB)).setX
        { u.x with tmp := u.uart.ctrlB.setWidth 16, cfg := cfgFromB u.x.cfg u.uart.ctrlB }).goto .rbC)
  | rbC (hw : u.params.wf = true) (hp : u.phase = .rbC) :
      u.Moves .getconfig (((u.emit (.r8 .ctrlC u.uart.ctrlC)).setX
        { u.x with tmp := u.uart.ctrlC.setWidth 16, cfg := cfgFromC u.x.cfg u.uart.ctrlC }).goto .rbBaud)
  | rbBaud {d c} (hw : u.params.wf = true) (hp : u.phase = .rbBaud) (hbus : u.params.bus = .whole)
      (hc : Configuration.unpack (cfgFromBaud u.x.cfg d) = some c) :
      u.Moves .getconfig (((u.useFree.emit (.r16 d)).setX { u.x with tmp := d, cfg := cfgFromBaud u.x.cfg d }).complete
        (Response.ofConfig ErrorMask.none c.pack))
  | rbBaudLow (hw : u.params.wf = true) (hp : u.phase = .rbBaud) (hbus : u.params.bus = .split) :
      u.Moves .getconfig (((u.emit (.r8 .baudLow (u.uart.baud.extractLsb' 0 8))).setTmp
        ((u.uart.baud.extractLsb' 0 8).setWidth 16)).goto .rbBaudHigh)
  | rbBaudHigh {high d c} (hw : u.params.wf = true) (hp : u.phase = .rbBaudHigh)
      (hc : Configuration.unpack (cfgFromBaud u.x.cfg d) = some c) :
      u.Moves .getconfig (((u.useFree.emit (.r8 .baudHigh high)).setX
        { u.x with tmp := d, cfg := cfgFromBaud u.x.cfg d }).complete (Response.ofConfig ErrorMask.none c.pack))
  -- GETERROR (rule R97)
  | geterror (hp : u.phase = .idle) : u.Moves .geterror (u.goto .geA)
  | geA (hw : u.params.wf = true) (hp : u.phase = .geA) :
      u.Moves .geterror ((((u.setUart u.uart.sawCtrlA).emit (.r8 .ctrlA u.uart.ctrlA)).setTmp
        (u.uart.ctrlA.setWidth 16)).complete (Response.ofStatus (decErr u.uart.ctrlA)))
  -- the gates (rules R100, R101 and R109)
  | gateAhead {i} (hg : i.gated = true) (hi : i.wf = true) (hp : u.phase = .idle) (hc : u.params.cached = false) :
      u.Moves i (u.goto .gateB)
  | cacheClosed {i} (hg : i.gated = true) (hi : i.wf = true) (hp : u.phase = .idle) (hc : u.params.cached = true)
      (hopen : i.direction.inCache u.cache = false) : u.Moves i (u.complete i.disabledResponse)
  | cacheOpen {i} (hg : i.gated = true) (hi : i.wf = true) (hp : u.phase = .idle) (hc : u.params.cached = true)
      (hopen : i.direction.inCache u.cache = true) : u.Moves i (i.started u)
  | gateClosed {i} (hg : i.gated = true) (hi : i.wf = true) (hw : u.params.wf = true) (hp : u.phase = .gateB)
      (hopen : i.direction.inCtrlB u.uart.ctrlB = false) :
      u.Moves i (((u.emit (.r8 .ctrlB u.uart.ctrlB)).setTmp (u.uart.ctrlB.setWidth 16)).complete i.disabledResponse)
  | gateOpen {i} (hg : i.gated = true) (hi : i.wf = true) (hw : u.params.wf = true) (hp : u.phase = .gateB)
      (hopen : i.direction.inCtrlB u.uart.ctrlB = true) :
      u.Moves i (i.started ((u.emit (.r8 .ctrlB u.uart.ctrlB)).setTmp (u.uart.ctrlB.setWidth 16)))
  -- the polls (rule R102)
  | txAgain {i} (ht : i.transmits = true) (hw : u.params.wf = true) (hp : u.phase = .txPoll)
      (hb : u.uart.bempty = false) :
      u.Moves i (((u.setUart u.uart.sawCtrlA).emit (.r8 .ctrlA u.uart.ctrlA)).setTmp (u.uart.ctrlA.setWidth 16))
  | txReady {i} (ht : i.transmits = true) (hw : u.params.wf = true) (hp : u.phase = .txPoll)
      (hb : u.uart.bempty = true) :
      u.Moves i ((((u.setUart u.uart.sawCtrlA).emit (.r8 .ctrlA u.uart.ctrlA)).setTmp
        (u.uart.ctrlA.setWidth 16)).goto .txData)
  | rxAgain {i} (hr : i.receives = true) (hw : u.params.wf = true) (hp : u.phase = .rxPoll)
      (hd : u.uart.waiting.isSome = false) :
      u.Moves i (((u.setUart u.uart.sawCtrlA).emit (.r8 .ctrlA u.uart.ctrlA)).setTmp (u.uart.ctrlA.setWidth 16))
  | rxReady {i} (hr : i.receives = true) (hw : u.params.wf = true) (hp : u.phase = .rxPoll)
      (hd : u.uart.waiting.isSome = true) :
      u.Moves i ((((u.setUart u.uart.sawCtrlA).emit (.r8 .ctrlA u.uart.ctrlA)).setTmp
        (u.uart.ctrlA.setWidth 16)).goto .rxErr)
  -- the transmit body (rules R103, R105, R110 and R113)
  | putcSent {byte} (hw : u.params.wf = true) (hp : u.phase = .txData) (hb : u.uart.bempty = true) :
      u.Moves (.putc byte) (((u.setUart (u.uart.handOver u.x.dbyte)).emit (.w8 .data u.x.dbyte)).complete
        (Response.ofStatus u.x.err))
  | putnMore {length} (hw : u.params.wf = true) (hp : u.phase = .txData) (hb : u.uart.bempty = true)
      (hlt : u.x.cnt + 1 < u.x.lim) :
      u.Moves (.putn length) ((((u.setUart (u.uart.handOver u.x.dbyte)).emit (.w8 .data u.x.dbyte)).setX
        { u.x with cnt := u.x.cnt + 1 }).goto .txnBuf)
  | putnDone {length} (hw : u.params.wf = true) (hp : u.phase = .txData) (hb : u.uart.bempty = true)
      (hlt : ¬ u.x.cnt + 1 < u.x.lim) :
      u.Moves (.putn length) ((((u.setUart (u.uart.handOver u.x.dbyte)).emit (.w8 .data u.x.dbyte)).setX
        { u.x with cnt := u.x.cnt + 1 }).complete (Response.ofStatus u.x.err))
  | putsMore (hw : u.params.wf = true) (hp : u.phase = .txData) (hb : u.uart.bempty = true)
      (hcnt : u.x.cnt ≠ 0xFFFF) :
      u.Moves .puts ((((u.setUart (u.uart.handOver u.x.dbyte)).emit (.w8 .data u.x.dbyte)).setX
        { u.x with cnt := u.x.cnt + 1 }).goto .txnBuf)
  | putnByte {length v} (hp : u.phase = .txnBuf) (hv : Memory.read u.buffer u.x.cnt.toNat = some v) :
      u.Moves (.putn length) (((u.emit (.br u.x.cnt v)).setX { u.x with dbyte := v }).goto .txPoll)
  | putsByte {v} (hp : u.phase = .txnBuf) (hv : Memory.read u.buffer u.x.cnt.toNat = some v) (hne : v ≠ 0x00) :
      u.Moves .puts (((u.emit (.br u.x.cnt v)).setX { u.x with dbyte := v }).goto .txPoll)
  | putsEnd {v} (hp : u.phase = .txnBuf) (hv : Memory.read u.buffer u.x.cnt.toNat = some v) (h0 : v = 0x00) :
      u.Moves .puts (((u.emit (.br u.x.cnt v)).setX { u.x with dbyte := v }).complete (Response.ofStatus u.x.err))
  -- the receive body (rules R104, R106, R111 and R112)
  | rxErr {i} (hr : i.receives = true) (hw : u.params.wf = true) (hp : u.phase = .rxErr) :
      u.Moves i ((((u.setUart u.uart.sawCtrlA).emit (.r8 .ctrlA u.uart.ctrlA)).setX
        { u.x with tmp := u.uart.ctrlA.setWidth 16, ebyte := decErr u.uart.ctrlA }).goto .rxData)
  | getcByte {d} (hw : u.params.wf = true) (hp : u.phase = .rxData) (hd : u.uart.waiting = some d) :
      u.Moves .getc ((((u.setUart u.uart.consume).emit (.r8 .data d)).setX
        { u.x with tmp := d.setWidth 16, dbyte := d, err := aggregate u.x.err u.x.ebyte }).complete
          (Response.ofByte (aggregate u.x.err u.x.ebyte) d))
  | rxByte {i d} (hr : i.receives = true) (hn : i ≠ .getc) (hw : u.params.wf = true) (hp : u.phase = .rxData)
      (hd : u.uart.waiting = some d) :
      u.Moves i ((((u.setUart u.uart.consume).emit (.r8 .data d)).setX
        { u.x with tmp := d.setWidth 16, dbyte := d }).goto .rxnBuf)
  | getnMore {length} (hp : u.phase = .rxnBuf) (hm : (Memory.read u.buffer u.x.cnt.toNat).isSome = true)
      (he : u.x.ebyte = ErrorMask.none) (hlt : u.x.cnt + 1 < u.x.lim) :
      u.Moves (.getn length) ((((u.setBuffer (Memory.write u.buffer u.x.cnt.toNat u.x.dbyte)).emit
        (.bw u.x.cnt u.x.dbyte)).setX
          { u.x with cnt := u.x.cnt + 1, err := aggregate u.x.err u.x.ebyte }).goto .rxPoll)
  | getnDone {length} (hp : u.phase = .rxnBuf) (hm : (Memory.read u.buffer u.x.cnt.toNat).isSome = true) :
      u.Moves (.getn length) ((((u.setBuffer (Memory.write u.buffer u.x.cnt.toNat u.x.dbyte)).emit
        (.bw u.x.cnt u.x.dbyte)).setX
          { u.x with cnt := u.x.cnt + 1, err := aggregate u.x.err u.x.ebyte }).complete
            (Response.ofCount (aggregate u.x.err u.x.ebyte) (u.x.cnt + 1)))
  | getsMore {capacity delimiter} (hi : capacity ≠ 0) (hp : u.phase = .rxnBuf)
      (hm : (Memory.read u.buffer u.x.cnt.toNat).isSome = true) (he : u.x.ebyte = ErrorMask.none)
      (hlt : u.x.cnt + 1 < u.x.lim) :
      u.Moves (.gets capacity delimiter) ((((u.setBuffer (Memory.write u.buffer u.x.cnt.toNat u.x.dbyte)).emit
        (.bw u.x.cnt u.x.dbyte)).setX
          { u.x with cnt := u.x.cnt + 1, err := aggregate u.x.err u.x.ebyte }).goto .rxPoll)
  | getsLast {capacity delimiter} (hi : capacity ≠ 0) (hp : u.phase = .rxnBuf)
      (hm : (Memory.read u.buffer u.x.cnt.toNat).isSome = true) :
      u.Moves (.gets capacity delimiter) ((((u.setBuffer (Memory.write u.buffer u.x.cnt.toNat u.x.dbyte)).emit
        (.bw u.x.cnt u.x.dbyte)).setX
          { u.x with cnt := u.x.cnt + 1, err := aggregate u.x.err u.x.ebyte }).goto .rxsTerm)
  | rxsTerm {capacity delimiter} (hi : capacity ≠ 0) (hp : u.phase = .rxsTerm)
      (hm : (Memory.read u.buffer u.x.cnt.toNat).isSome = true) :
      u.Moves (.gets capacity delimiter) (((u.setBuffer (Memory.write u.buffer u.x.cnt.toNat 0x00)).emit
        (.bw u.x.cnt 0x00)).complete (Response.ofCount u.x.err u.x.cnt))
  -- FLUSHRX (rule R117)
  | flushSkipped (hp : u.phase = .idle) (hc : u.params.cached = true) (hr : u.cache.receiveEnabled = false) :
      u.Moves .flushrx (u.complete (Response.ofStatus ErrorMask.none))
  | flushrx (hp : u.phase = .idle) (hr : u.params.cached = true → u.cache.receiveEnabled = true) :
      u.Moves .flushrx (u.goto .flRead)
  | flDisabled (hw : u.params.wf = true) (hp : u.phase = .flRead) (hc : u.params.cached = false)
      (hr : u.uart.rxen = false) :
      u.Moves .flushrx (((u.emit (.r8 .ctrlB u.uart.ctrlB)).setTmp (u.uart.ctrlB.setWidth 16)).complete
        (Response.ofStatus ErrorMask.none))
  | flRead (hw : u.params.wf = true) (hp : u.phase = .flRead) (hr : u.params.cached = false → u.uart.rxen = true) :
      u.Moves .flushrx (((u.emit (.r8 .ctrlB u.uart.ctrlB)).setTmp (u.uart.ctrlB.setWidth 16)).goto .flOff)
  | flOff (hw : u.params.wf = true) (hp : u.phase = .flOff) :
      u.Moves .flushrx (((u.setUart (u.uart.writeCtrlB (flushOff (lowByte u.x.tmp)))).emit
        (.w8 .ctrlB (flushOff (lowByte u.x.tmp)))).goto .flOn)
  | flOn (hw : u.params.wf = true) (hp : u.phase = .flOn) :
      u.Moves .flushrx (((u.setUart (u.uart.writeCtrlB (flushOn (lowByte u.x.tmp)))).emit
        (.w8 .ctrlB (flushOn (lowByte u.x.tmp)))).complete (Response.ofStatus ErrorMask.none))

/-- The ways a step ends in a fault: the parity pattern 1 at the end of the read-back (rule R90), or a phase that belongs to
another command (rule R19). -/
inductive Peripheral.Faults (u : Peripheral) : Instr → Fault → Prop
  | parity (hp : u.phase ∈ [.rbBaud, .rbBaudHigh]) (hk : u.x.cfg.extractLsb' 16 2 = 1) :
      u.Faults .getconfig .parityNotValid
  | otherCommand {i} (hp : u.phase ∉ .idle :: i.phases u.params) : u.Faults i .phaseOfOtherCommand

/-- The ways a step is refused. -/
inductive Peripheral.Refuses (u : Peripheral) : Instr → Refusal → Prop
  | badBlock {i} (hw : u.params.wf = false) : u.Refuses i .badRegisterBlock
  | notReady {i} (hp : u.phase = .rxData) (hd : u.uart.waiting = none) : u.Refuses i .dataReadNotReady
  | notEmpty {i} (hp : u.phase = .txData) (hb : u.uart.bempty = false) : u.Refuses i .dataWriteNotEmpty
  | capacityZero {i} (hi : i.wf = false) : u.Refuses i .capacityZero
  | outside {i} (hp : u.phase ∈ [.txnBuf, .rxnBuf, .rxsTerm]) (hm : Memory.read u.buffer u.x.cnt.toNat = none) :
      u.Refuses i (.outsideBuffer u.x.cnt)
  | unterminated (hp : u.phase ∈ [.txnBuf, .txData]) : u.Refuses .puts .unterminatedString

/-- What a step of a command can answer. -/
inductive Peripheral.Does (u : Peripheral) (i : Instr) : Reply Peripheral → Prop
  | next {w : Peripheral} (h : u.Moves i w) : u.Does i (.next w)
  | fault {f : Fault} (h : u.Faults i f) : u.Does i (.fault f)
  | refused {r : Refusal} (h : u.Refuses i r) : u.Does i (.refused r)

section Does

variable {u : Peripheral} {i : Instr}

/-- A register read is refused for the block alone, DATA apart. -/
theorem Peripheral.Does.read {r : Slot} {k : Byte × Peripheral → Reply Peripheral}
    (h : u.params.wf = true → u.Does i ((u.readSlot r).andThen k)) : u.Does i ((regRead8 r u).andThen k) := by
  rw [regRead8_eq]
  split
  next hw => exact h hw
  next hw => exact .refused (.badBlock (Bool.eq_false_iff.2 hw))

theorem Peripheral.Does.readData {k : Byte × Peripheral → Reply Peripheral} (hp : u.phase = .rxData)
    (h : u.params.wf = true → ∀ d, u.uart.waiting = some d →
      u.Does i (k (d, (u.setUart u.uart.consume).emit (.r8 .data d)))) :
    u.Does i ((regRead8 .data u).andThen k) := by
  refine .read fun hw => ?_
  rw [Peripheral.readSlot]
  cases hd : u.uart.waiting with
  | some d => exact h hw d hd
  | none => exact .refused (.notReady hp hd)

theorem Peripheral.Does.write {r : Slot} {v : Byte} {k : Peripheral → Reply Peripheral}
    (h : u.params.wf = true → u.Does i ((u.writeSlot r v).andThen k)) : u.Does i ((regWrite8 r v u).andThen k) := by
  rw [regWrite8_eq]
  split
  next hw => exact h hw
  next hw => exact .refused (.badBlock (Bool.eq_false_iff.2 hw))

theorem Peripheral.Does.writeData {v : Byte} {k : Peripheral → Reply Peripheral} (hp : u.phase = .txData)
    (h : u.params.wf = true → u.uart.bempty = true → u.Does i (k ((u.setUart (u.uart.handOver v)).emit (.w8 .data v)))) :
    u.Does i ((regWrite8 .data v u).andThen k) := by
  refine .write fun hw => ?_
  rw [Peripheral.writeSlot]
  split
  next hb => exact h hw hb
  next hb => exact .refused (.notEmpty hp (Bool.eq_false_iff.2 hb))

theorem Peripheral.Does.read16 {k : BitVec 16 × Peripheral → Reply Peripheral}
    (h : u.params.wf = true → ∀ d, u.Does i (k (d, u.useFree.emit (.r16 d)))) : u.Does i ((regRead16 u).andThen k) := by
  cases hw : u.params.wf with
  | true => rw [regRead16_eq hw]; exact h hw _
  | false =>
    simp only [regRead16, memRead16, Peripheral.locate_address, hw]
    exact .refused (.badBlock hw)

theorem Peripheral.Does.write16 {v : BitVec 16} {k : Peripheral → Reply Peripheral}
    (h : u.params.wf = true → u.Does i (k ((u.setUart (u.uart.writeBaud v)).emit (.w16 v)))) :
    u.Does i ((regWrite16 v u).andThen k) := by
  cases hw : u.params.wf with
  | true => rw [regWrite16_eq hw]; exact h hw
  | false =>
    simp only [regWrite16, memWrite16, Peripheral.locate_address, hw]
    exact .refused (.badBlock hw)

theorem Peripheral.Does.bufWrite {v : Byte} {k : Peripheral → Reply Peripheral}
    (hp : u.phase ∈ [.txnBuf, .rxnBuf, .rxsTerm])
    (h : (Memory.read u.buffer u.x.cnt.toNat).isSome = true →
      u.Does i (k ((u.setBuffer (Memory.write u.buffer u.x.cnt.toNat v)).emit (.bw u.x.cnt v)))) :
    u.Does i ((Machine.bufWrite u.x.cnt v u).andThen k) := by
  rw [Machine.bufWrite]
  cases hm : Memory.read u.buffer u.x.cnt.toNat with
  | some b => exact h (by simp [hm])
  | none => exact .refused (.outside hp hm)

theorem Peripheral.Does.bufRead {why : Refusal} {k : Byte × Peripheral → Reply Peripheral}
    (hwhy : Memory.read u.buffer u.x.cnt.toNat = none → u.Refuses i why)
    (h : ∀ v, Memory.read u.buffer u.x.cnt.toNat = some v → u.Does i (k (v, u.emit (.br u.x.cnt v)))) :
    u.Does i ((Machine.bufRead why u.x.cnt u).andThen k) := by
  rw [Machine.bufRead]
  cases hm : Memory.read u.buffer u.x.cnt.toNat with
  | some b => exact h b hm
  | none => exact .refused (hwhy hm)

theorem Reply.andThen_assoc {α β γ : Type} (o : Reply α) (f : α → Reply β) (k : β → Reply γ) :
    (o.andThen f).andThen k = o.andThen fun a => (f a).andThen k := by cases o <;> rfl

theorem Peripheral.Does.ite {c : Prop} [Decidable c] {o o' : Reply Peripheral} (h : c → u.Does i o)
    (h' : ¬ c → u.Does i o') : u.Does i (if c then o else o') := by
  by_cases hc : c
  · rw [if_pos hc]; exact h hc
  · rw [if_neg hc]; exact h' hc

theorem Peripheral.Does.nextIte {c : Prop} [Decidable c] {w w' : Peripheral} (h : c → u.Does i (.next w))
    (h' : ¬ c → u.Does i (.next w')) : u.Does i (.next (if c then w else w')) := by
  rw [apply_ite Host.Outcome.next]
  exact .ite h h'

/-! ### The shared steps -/

theorem Peripheral.Does.accept (hg : i.gated = true) (hi : i.wf = true) (hp : u.phase = .idle) :
    u.Does i (acceptGated i.direction i.disabledResponse i.started u) := by
  cases hc : u.params.cached with
  | false => rw [acceptGated_readBack hc]; exact .next (.gateAhead hg hi hp hc)
  | true =>
    rw [acceptGated_cached hc]
    cases ho : i.direction.inCache u.cache with
    | true => exact .next (.cacheOpen hg hi hp hc ho)
    | false => exact .next (.cacheClosed hg hi hp hc ho)

theorem Peripheral.Does.gate (hg : i.gated = true) (hi : i.wf = true) (hp : u.phase = .gateB) :
    u.Does i (gateStep i.direction i.disabledResponse i.started u) := by
  refine .read fun hw => ?_
  show u.Does i (.next (openGate (i.direction.inCtrlB u.uart.ctrlB) _ _ _))
  cases ho : i.direction.inCtrlB u.uart.ctrlB with
  | true => exact .next (.gateOpen hg hi hw hp ho)
  | false => exact .next (.gateClosed hg hi hw hp ho)

theorem Peripheral.Does.txPoll (ht : i.transmits = true) (hp : u.phase = .txPoll) : u.Does i (txPollStep u) := by
  refine .read fun hw => ?_
  show u.Does i (.next (if bufferIsEmpty u.uart.ctrlA then _ else _))
  rw [bufferIsEmpty_ctrlA]
  cases hb : u.uart.bempty with
  | true => exact .next (.txReady ht hw hp hb)
  | false => exact .next (.txAgain ht hw hp hb)

theorem Peripheral.Does.rxPoll (hr : i.receives = true) (hp : u.phase = .rxPoll) : u.Does i (rxPollStep u) := by
  refine .read fun hw => ?_
  show u.Does i (.next (if dataReady u.uart.ctrlA then _ else _))
  rw [dataReady_ctrlA]
  cases hd : u.uart.waiting.isSome with
  | true => exact .next (.rxReady hr hw hp hd)
  | false => exact .next (.rxAgain hr hw hp hd)

theorem Peripheral.Does.rxErr (hr : i.receives = true) (hp : u.phase = .rxErr) : u.Does i (rxErrStep u) :=
  .read fun hw => .next (.rxErr hr hw hp)

theorem Peripheral.Does.rxByte (hr : i.receives = true) (hn : i ≠ .getc) (hp : u.phase = .rxData) :
    u.Does i ((rxDataStep u).andThen fun w => .next (w.goto .rxnBuf)) := by
  rw [rxDataStep, Reply.andThen_assoc]
  exact .readData hp fun hw d hd => .next (.rxByte hr hn hw hp hd)

/-! ### The commands -/

theorem Peripheral.ite_setCache (b : Bool) (w : Peripheral) (c : Configuration) :
    (if b then w.setCache c else w) = w.setCache (if b then c else w.cache) := by cases b <;> rfl

theorem configureStep_does (c : Configuration) : u.Does (.configure c) (configureStep c u) := by
  rw [configureStep]
  split
  next hp => exact .next (.configure hp)
  next hp => exact .write fun hw => .next (.cfgBOff hw hp)
  next hp => exact .write fun hw => .next (.cfgA hw hp)
  next hp => exact .write fun hw => .next (.cfgC hw hp)
  next hp =>
    split
    next hbus => exact .write16 fun hw => .next (.cfgBaud hw hp hbus)
    next hbus => exact .write fun hw => .next (.cfgBaudHigh hw hp hbus)
  next hp => exact .write fun hw => .next (.cfgBaudLow hw hp)
  next hp =>
    refine .write fun hw => ?_
    show u.Does _ (.next (Peripheral.complete (if u.params.cached then _ else _) _))
    rw [Peripheral.ite_setCache]
    exact .next (.cfgBOn hw hp)
  next => exact .fault (.otherCommand (by grind [Instr.phases, gatePhases, splitPhase]))

theorem readBackEnd_does {w : Peripheral} {d : BitVec 16} (hp : u.phase ∈ [.rbBaud, .rbBaudHigh])
    (hcfg : w.x.cfg = u.x.cfg)
    (h : ∀ c, Configuration.unpack (cfgFromBaud w.x.cfg d) = some c → u.Moves .getconfig
      ((w.setX { w.x with tmp := d, cfg := cfgFromBaud w.x.cfg d }).complete (Response.ofConfig ErrorMask.none c.pack))) :
    u.Does .getconfig (readBackEnd d w) := by
  cases hc : Configuration.unpack (cfgFromBaud w.x.cfg d) with
  | some c => rw [readBackEnd_valid hc]; exact .next (h c hc)
  | none =>
    rw [readBackEnd_invalid hc]
    exact .fault (.parity hp (hcfg ▸ (unpack_cfgFromBaud_eq_none_iff _ _).1 hc))

theorem getconfigStep_does : u.Does .getconfig (getconfigStep u) := by
  rw [getconfigStep]
  split
  next hp =>
    split
    next hc => exact .next (.cacheAnswered hp hc)
    next hc => exact .next (.getconfig hp (Bool.eq_false_iff.2 hc))
  next hp => exact .read fun hw => .next (.rbA hw hp)
  next hp => exact .read fun hw => .next (.rbB hw hp)
  next hp => exact .read fun hw => .next (.rbC hw hp)
  next hp =>
    split
    next hbus =>
      exact .read16 fun hw d => readBackEnd_does (by simp [hp]) rfl fun c hc => .rbBaud hw hp hbus hc
    next hbus => exact .read fun hw => .next (.rbBaudLow hw hp hbus)
  next hp =>
    exact .read fun hw => readBackEnd_does (by simp [hp]) rfl fun c hc => .rbBaudHigh hw hp hc
  next => exact .fault (.otherCommand (by grind [Instr.phases, gatePhases, splitPhase]))

theorem geterrorStep_does : u.Does .geterror (geterrorStep u) := by
  rw [geterrorStep]
  split
  next hp => exact .next (.geterror hp)
  next hp => exact .read fun hw => .next (.geA hw hp)
  next => exact .fault (.otherCommand (by grind [Instr.phases, gatePhases, splitPhase]))

theorem putcStep_does (byte : Byte) : u.Does (.putc byte) (putcStep byte u) := by
  rw [putcStep]
  split
  next hp => exact .accept (i := .putc byte) rfl rfl hp
  next hp => exact .gate (i := .putc byte) rfl rfl hp
  next hp => exact .txPoll rfl hp
  next hp =>
    rw [txDataStep, Reply.andThen_assoc]
    refine .writeData hp fun hw hb => ?_
    simp only [Reply.next_andThen, Peripheral.setX_x, aggregate_none]
    exact .next (.putcSent hw hp hb)
  next => exact .fault (.otherCommand (by grind [Instr.phases, gatePhases, splitPhase]))

theorem getcStep_does : u.Does .getc (getcStep u) := by
  rw [getcStep]
  split
  next hp => exact .accept (i := .getc) rfl rfl hp
  next hp => exact .gate (i := .getc) rfl rfl hp
  next hp => exact .rxPoll rfl hp
  next hp => exact .rxErr rfl hp
  next hp =>
    rw [rxDataStep, Reply.andThen_assoc]
    exact .readData hp fun hw d hd => .next (.getcByte hw hp hd)
  next => exact .fault (.otherCommand (by grind [Instr.phases, gatePhases, splitPhase]))

theorem putnStep_does (length : Len) : u.Does (.putn length) (putnStep length u) := by
  rw [putnStep, putnStart_eq]
  split
  next hp => exact .accept (i := .putn length) rfl rfl hp
  next hp => exact .gate (i := .putn length) rfl rfl hp
  next hp =>
    rw [txnBufStep, Reply.andThen_assoc]
    exact .bufRead (.outside (by simp [hp])) fun v hv => .next (.putnByte hp hv)
  next hp => exact .txPoll rfl hp
  next hp =>
    rw [txDataStep, Reply.andThen_assoc]
    refine .writeData hp fun hw hb => ?_
    simp only [Reply.next_andThen, aggregate_none]
    exact .nextIte (fun hlt => .next (.putnMore hw hp hb hlt)) fun hlt => .next (.putnDone hw hp hb hlt)
  next => exact .fault (.otherCommand (by grind [Instr.phases, gatePhases, splitPhase]))

theorem getnStep_does (length : Len) : u.Does (.getn length) (getnStep length u) := by
  rw [getnStep, getnStart_eq]
  split
  next hp => exact .accept (i := .getn length) rfl rfl hp
  next hp => exact .gate (i := .getn length) rfl rfl hp
  next hp => exact .rxPoll rfl hp
  next hp => exact .rxErr rfl hp
  next hp => exact .rxByte rfl Instr.noConfusion hp
  next hp =>
    rw [rxnBufStep, Reply.andThen_assoc]
    refine .bufWrite (by simp [hp]) fun hm => .nextIte (fun _ => .next (.getnDone hp hm)) fun he => ?_
    exact .nextIte (fun hlt => .next (.getnMore hp hm (not_not.1 he) hlt)) fun _ => .next (.getnDone hp hm)
  next => exact .fault (.otherCommand (by grind [Instr.phases, gatePhases, splitPhase]))

theorem getsStep_does (capacity : Len) (delimiter : Byte) :
    u.Does (.gets capacity delimiter) (getsStep capacity delimiter u) := by
  rw [getsStep]
  split
  next hc => exact .refused (.capacityZero (by simp [Instr.wf, hc]))
  next hc =>
  have hi : (Instr.gets capacity delimiter).wf = true := by simpa [Instr.wf] using hc
  rw [getsStart_eq delimiter hc]
  split
  next hp => exact .accept (i := .gets capacity delimiter) rfl hi hp
  next hp => exact .gate (i := .gets capacity delimiter) rfl hi hp
  next hp => exact .rxPoll rfl hp
  next hp => exact .rxErr rfl hp
  next hp => exact .rxByte rfl Instr.noConfusion hp
  next hp =>
    rw [rxnBufStep, Reply.andThen_assoc]
    refine .bufWrite (by simp [hp]) fun hm => .nextIte (fun _ => .next (.getsLast hc hp hm)) fun he => ?_
    have ⟨he, _⟩ := not_or.1 he
    exact .nextIte (fun hlt => .next (.getsMore hc hp hm (not_not.1 he) hlt)) fun _ => .next (.getsLast hc hp hm)
  next hp => exact .bufWrite (by simp [hp]) fun hm => .next (.rxsTerm hc hp hm)
  next => exact .fault (.otherCommand (by grind [Instr.phases, gatePhases, splitPhase]))

theorem putsStep_does : u.Does .puts (putsStep u) := by
  rw [putsStep]
  split
  next hp => exact .accept (i := .puts) rfl rfl hp
  next hp => exact .gate (i := .puts) rfl rfl hp
  next hp =>
    rw [txnBufStep, Reply.andThen_assoc]
    exact .bufRead (fun _ => .unterminated (by simp [hp])) fun v hv =>
      .nextIte (fun h0 => .next (.putsEnd hp hv h0)) fun hne => .next (.putsByte hp hv hne)
  next hp => exact .txPoll rfl hp
  next hp =>
    rw [txDataStep, Reply.andThen_assoc]
    refine .writeData hp fun hw hb => ?_
    simp only [Reply.next_andThen, aggregate_none]
    exact .ite (fun _ => .refused (.unterminated (by simp [hp]))) fun hcnt => .next (.putsMore hw hp hb hcnt)
  next => exact .fault (.otherCommand (by grind [Instr.phases, gatePhases, splitPhase]))

theorem flushrxStep_does : u.Does .flushrx (flushrxStep u) := by
  rw [flushrxStep]
  split
  next hp =>
    split
    next h =>
      have ⟨hc, hr⟩ := Bool.and_eq_true_iff.1 h
      exact .next (.flushSkipped hp hc (by simpa using hr))
    next h => exact .next (.flushrx hp fun hc => by simpa [hc] using h)
  next hp =>
    refine .read fun hw => .nextIte (fun h => ?_) fun h => .next (.flRead hw hp fun hc => ?_)
    · have ⟨hc, hr⟩ := Bool.and_eq_true_iff.1 h
      exact .next (.flDisabled hw hp (by simpa using hc) (by simpa [Uart.rxen] using hr))
    · simpa [hc, Uart.rxen] using h
  next hp => exact .write fun hw => .next (.flOff hw hp)
  next hp => exact .write fun hw => .next (.flOn hw hp)
  next => exact .fault (.otherCommand (by grind [Instr.phases, gatePhases, splitPhase]))

/-- What a step of a command answers, for every command and every peripheral. -/
theorem act_does (i : Instr) (u : Peripheral) : u.Does i (i.act u) := by
  cases i with
  | configure c => exact configureStep_does c
  | getconfig => exact getconfigStep_does
  | geterror => exact geterrorStep_does
  | putc byte => exact putcStep_does byte
  | getc => exact getcStep_does
  | putn length => exact putnStep_does length
  | getn length => exact getnStep_does length
  | gets capacity delimiter => exact getsStep_does capacity delimiter
  | puts => exact putsStep_does
  | flushrx => exact flushrxStep_does

/-- What a step that goes on has done: one of the moves, at the selected peripheral alone. -/
theorem exec_next {s t : State} (h : exec i s = .next t) : ∃ w, s.self.Moves i w ∧ t = { s with self := w } := by
  rw [exec_eq_onSelf, State.onSelf_eq_next] at h
  obtain ⟨w, hw, rfl⟩ := h
  have hd := act_does i s.self
  rw [hw] at hd
  cases hd with
  | next h => exact ⟨w, h, rfl⟩

theorem exec_fault {s : State} {f : Fault} (h : exec i s = .fault f) : s.self.Faults i f := by
  rw [exec_eq_onSelf, State.onSelf, Reply.andThen_eq_fault] at h
  have hd := act_does i s.self
  obtain h | ⟨_, _, h⟩ := h
  · rw [h] at hd
    cases hd with
    | fault h => exact h
  · cases h

theorem exec_refused {s : State} {r : Refusal} (h : exec i s = .refused r) : s.self.Refuses i r := by
  rw [exec_eq_onSelf, State.onSelf, Reply.andThen_eq_refused] at h
  have hd := act_does i s.self
  obtain h | ⟨_, _, h⟩ := h
  · rw [h] at hd
    cases hd with
    | refused h => exact h
  · cases h

end Does

end Sys2Proof.Machine
end

section
/-! SUPPORT. Rules R20, R21, R24, R25, R49, R58, R116, R133 and R158: what no move changes, and what each move adds to the trace and
the responses, by cases on the moves. -/

namespace Sys2Proof.Machine

section Frame

variable {u w : Peripheral} {i : Instr}

/-! ### The start of a gated command makes no access -/

theorem started_frame (i : Instr) (u : Peripheral) :
    (i.started u).params = u.params ∧ (i.started u).port = u.port ∧ (i.started u).x.cmd = u.x.cmd ∧
      (i.started u).uart = u.uart ∧ (i.started u).buffer = u.buffer ∧ (i.started u).trace = u.trace ∧
      (i.started u).cache = u.cache := by
  cases i with
  | putn length => rw [Instr.started]; split <;> simp
  | getn length => rw [Instr.started]; split <;> simp
  | _ => simp [Instr.started]

/-- A gated command that starts is in a phase of its own, or ends at once with one response. -/
theorem started_phase (hg : i.gated = true) (u : Peripheral) :
    (i.started u).phase ≠ .idle ∧ (i.started u).responses = u.responses ∨
      (i.started u).phase = .idle ∧ ∃ r, (i.started u).responses = u.responses ++ [r] := by
  cases i with
  | putn length => rw [Instr.started]; split <;> simp
  | getn length => rw [Instr.started]; split <;> simp
  | gets capacity delimiter =>
    refine .inl ⟨?_, rfl⟩
    show (if capacity = 1 then Phase.rxsTerm else .rxPoll) ≠ .idle
    split <;> decide
  | putc | getc | puts => simp [Instr.started]
  | _ => cases hg

/-! ### What no move changes (rules R21, R24 and R25) -/

theorem Peripheral.Moves.frame (h : u.Moves i w) :
    w.params = u.params ∧ w.port = u.port ∧ w.x.cmd = u.x.cmd := by
  cases h with
  | cacheOpen => have ⟨hp, hq, hx, _⟩ := started_frame i u; exact ⟨hp, hq, hx⟩
  | gateOpen =>
    have ⟨hp, hq, hx, _⟩ := started_frame i ((u.emit (.r8 .ctrlB u.uart.ctrlB)).setTmp (u.uart.ctrlB.setWidth 16))
    exact ⟨hp, hq, hx⟩
  | _ => exact ⟨rfl, rfl, rfl⟩

/-- A command goes on with no response, or ends with one (rule R21). -/
theorem Peripheral.Moves.goes_on_or_ends (h : u.Moves i w) (hp : u.phase ≠ .idle) :
    w.phase ≠ .idle ∧ w.responses = u.responses ∨ w.phase = .idle ∧ ∃ r, w.responses = u.responses ++ [r] := by
  cases h with
  | cacheOpen _ _ hidle => exact absurd hidle hp
  | gateOpen hg => exact started_phase hg ((u.emit (.r8 .ctrlB u.uart.ctrlB)).setTmp (u.uart.ctrlB.setWidth 16))
  | txAgain | rxAgain => exact .inl ⟨hp, rfl⟩
  | _ => simp

/-! ### The accesses of a move (rules R19, R20 and R58) -/

/-- Accepting a command makes no access; every later move makes one, which its phase names. -/
theorem Peripheral.Moves.access (h : u.Moves i w) :
    u.phase = .idle ∧ w.trace = u.trace ∨
      u.phase ≠ .idle ∧ ∃ a, w.trace = u.trace ++ [a] ∧ u.phase.names u.params.bus a = true := by
  cases h with
  | cacheOpen _ _ hp => have ⟨_, _, _, _, _, ht, _⟩ := started_frame i u; exact .inl ⟨hp, ht⟩
  | gateOpen _ _ _ hp =>
    have ⟨_, _, _, _, _, ht, _⟩ :=
      started_frame i ((u.emit (.r8 .ctrlB u.uart.ctrlB)).setTmp (u.uart.ctrlB.setWidth 16))
    exact .inr ⟨by simp [hp], _, ht, by simp [hp, Phase.names]⟩
  | configure hp | cacheAnswered hp | getconfig hp | geterror hp | flushSkipped hp | flushrx hp => exact .inl ⟨hp, rfl⟩
  | gateAhead _ _ hp | cacheClosed _ _ hp => exact .inl ⟨hp, rfl⟩
  | _ => exact .inr ⟨by simp [*], _, rfl, by simp [*, Phase.names]⟩

/-! ### Who writes the control registers (rule R158) -/

/-- The registers that CONFIGURE alone writes are as before, and the access of the move, if there is one, writes none of them;
outside FLUSHRX the same holds of Control B. -/
theorem Peripheral.Moves.control_frame (h : u.Moves i w) (hi : ∀ c, i ≠ .configure c) :
    w.uart.u2x = u.uart.u2x ∧ w.uart.mpcm = u.uart.mpcm ∧ w.uart.txc = u.uart.txc ∧ w.uart.ctrlC = u.uart.ctrlC ∧
    w.uart.baud = u.uart.baud ∧ (i ≠ .flushrx → w.uart.ctrlB = u.uart.ctrlB) ∧
    ∃ added, w.trace = u.trace ++ added ∧ (∀ a ∈ added, a.writesConfiguration = false) ∧
      (i ≠ .flushrx → ∀ a ∈ added, a.writesControlB = false) := by
  cases h with
  | cacheOpen =>
    have ⟨_, _, _, hu, _, ht, _⟩ := started_frame i u
    simp [hu, ht]
  | gateOpen =>
    have ⟨_, _, _, hu, _, ht, _⟩ :=
      started_frame i ((u.emit (.r8 .ctrlB u.uart.ctrlB)).setTmp (u.uart.ctrlB.setWidth 16))
    simp [hu, ht, Access.writesConfiguration, Access.writesControlB]
  | configure | cfgBOff | cfgA | cfgC | cfgBaud | cfgBaudHigh | cfgBaudLow | cfgBOn => exact absurd rfl (hi _)
  | _ => simp [Access.writesConfiguration, Access.writesControlB]

/-- CONFIGURE alone changes the cache (rule R119). -/
theorem Peripheral.Moves.cache (h : u.Moves i w) (hi : ∀ c, i ≠ .configure c) : w.cache = u.cache := by
  cases h with
  | cacheOpen => have ⟨_, _, _, _, _, _, hc⟩ := started_frame i u; exact hc
  | gateOpen =>
    have ⟨_, _, _, _, _, _, hc⟩ :=
      started_frame i ((u.emit (.r8 .ctrlB u.uart.ctrlB)).setTmp (u.uart.ctrlB.setWidth 16))
    exact hc
  | cfgBOn => exact absurd rfl (hi _)
  | _ => rfl

/-! ### Who changes the caller's buffer (rules R49 and R116) -/

/-- The buffer is as before, but for a write of index `x[cnt]` in `RXN_BUF` and `RXS_TERM`. -/
theorem Peripheral.Moves.buffer (h : u.Moves i w) :
    (u.phase ∉ [.rxnBuf, .rxsTerm] ∧ w.buffer = u.buffer) ∨
    (i.receives = true ∧ (Memory.read u.buffer u.x.cnt.toNat).isSome = true ∧
      ((u.phase = .rxnBuf ∧ w.buffer = Memory.write u.buffer u.x.cnt.toNat u.x.dbyte) ∨
       (u.phase = .rxsTerm ∧ w.buffer = Memory.write u.buffer u.x.cnt.toNat 0x00))) := by
  cases h with
  | cacheOpen =>
    have ⟨_, _, _, _, hb, _⟩ := started_frame i u
    exact .inl ⟨by simp [*], hb⟩
  | gateOpen =>
    have ⟨_, _, _, _, hb, _⟩ :=
      started_frame i ((u.emit (.r8 .ctrlB u.uart.ctrlB)).setTmp (u.uart.ctrlB.setWidth 16))
    exact .inl ⟨by simp [*], hb⟩
  | getnMore hp hm | getnDone hp hm => exact .inr ⟨rfl, hm, .inl ⟨hp, rfl⟩⟩
  | getsMore _ hp hm | getsLast _ hp hm => exact .inr ⟨rfl, hm, .inl ⟨hp, rfl⟩⟩
  | rxsTerm _ hp hm => exact .inr ⟨rfl, hm, .inr ⟨hp, rfl⟩⟩
  | _ => exact .inl ⟨by simp [*], rfl⟩

end Frame

/-- Settles O26: by cases on the move, its access is one that its phase names. -/
theorem oneAccessPerStep : Obligations.OneAccessPerStep := by
  intro i s t ht
  obtain ⟨w, hm, rfl⟩ := exec_next ht
  obtain ⟨hp, htrace⟩ | ⟨hp, a, htrace, hnames⟩ := hm.access
  · exact ⟨fun _ => htrace, fun hne => absurd hp hne⟩
  · exact ⟨fun hidle => absurd hidle hp, fun _ => ⟨a, htrace, hnames⟩⟩

/-- Settles O30: by cases on the moves of the other nine commands. -/
theorem whoWritesTheControlRegisters : Obligations.WhoWritesTheControlRegisters := by
  intro i s t ht hi
  obtain ⟨w, hm, rfl⟩ := exec_next ht
  exact hm.control_frame hi

/-- Settles O31: a move writes the buffer in two phases only, and a write changes one index. -/
theorem whoChangesTheBuffer : Obligations.WhoChangesTheBuffer := by
  intro i s t ht
  obtain ⟨w, hm, rfl⟩ := exec_next ht
  obtain ⟨hp, hb⟩ | ⟨hr, hm, ⟨hp, hb⟩ | ⟨hp, hb⟩⟩ := hm.buffer
  · simp only [List.mem_cons, List.not_mem_nil, or_false, not_or] at hp
    simp [hb, hp]
  · simp only [hb, hp]
    refine ⟨fun a ha => Memory.read_write_of_ne (ha (by simp)) _, fun _ => Memory.read_write_same hm _, ?_, fun _ => hr⟩
    simp
  · simp only [hb, hp]
    refine ⟨fun a ha => Memory.read_write_of_ne (ha (by simp)) _, ?_, fun _ => Memory.read_write_same hm _, fun _ => hr⟩
    simp

/-! ### The machine around the selected peripheral (rules R61 and R133) -/

theorem takeOut_perm {base : Nat} {l rest : List Peripheral} {p : Peripheral} (h : takeOut base l = some (p, rest)) :
    (p :: rest).Perm l := by
  induction l generalizing rest with
  | nil => cases h
  | cons q qs ih =>
    unfold takeOut at h
    split at h
    · cases h; exact .refl _
    · split at h
      next p' rest' htake =>
        cases h
        exact (List.Perm.swap q p rest').trans ((ih htake).cons q)
      next => cases h

/-- The turn only reorders the peripherals. -/
theorem State.nextTurn_perm (s : State) : (s.nextTurn.self :: s.nextTurn.others).Perm (s.self :: s.others) := by
  rw [State.nextTurn]
  split
  · exact .refl _
  · show ((s.select _).self :: (s.select _).others).Perm _
    rw [State.select]
    split
    · exact .refl _
    · split
      next p rest htake => exact (List.Perm.swap s.self p rest).trans ((takeOut_perm htake).cons s.self)
      next => exact .refl _

/-- What a step that goes on has done to the prepared state: nothing, or one move of the command accepted or in progress. -/
theorem step_next {s t : State} (h : step s = .next t) :
    t = s.prepare ∧ s.prepare.self.phase = .idle ∨
    (∃ c rest i w, s.prepare.self.phase = .idle ∧ decode c.word = .ok i ∧ (s.prepare.self.accept c rest).Moves i w ∧
      t = { s.prepare with self := w }) ∨
    (∃ i w, s.prepare.self.phase ≠ .idle ∧ decode s.prepare.self.x.cmd = .ok i ∧ s.prepare.self.Moves i w ∧
      t = { s.prepare with self := w }) := by
  unfold step State.fetch at h
  by_cases hp : s.prepare.self.phase = .idle
  · rw [if_pos hp] at h
    cases hport : s.prepare.self.port with
    | nil => rw [hport] at h; cases h; exact .inl ⟨rfl, hp⟩
    | cons c rest =>
      cases hd : decode c.word with
      | error e => simp only [hport, hd] at h; cases h
      | ok i =>
        simp only [hport, hd] at h
        obtain ⟨w, hm, rfl⟩ := exec_next h
        exact .inr (.inl ⟨c, rest, i, w, hp, hd, hm, rfl⟩)
  · rw [if_neg hp] at h
    cases hd : decode s.prepare.self.x.cmd with
    | error e => simp only [hd] at h; cases h
    | ok i =>
      simp only [hd] at h
      obtain ⟨w, hm, rfl⟩ := exec_next h
      exact .inr (.inr ⟨i, w, hp, rfl, hm, rfl⟩)

/-- Settles O25: outside `IDLE` the command in progress makes a move, and no move touches the port or the latched word. -/
theorem portServedOnlyInIdle : Obligations.PortServedOnlyInIdle := by
  intro s t hp ht
  obtain ⟨_, hidle⟩ | ⟨_, _, _, _, hidle, _⟩ | ⟨i, w, _, _, hm, rfl⟩ := step_next ht
  · exact absurd hidle hp
  · exact absurd hidle hp
  · obtain ⟨_, hport, hcmd⟩ := hm.frame
    exact ⟨hport, hcmd, hm.goes_on_or_ends hp⟩

/-- A step leaves the peripherals it does not serve as they are, and every parameter. -/
theorem step_others {s t : State} (h : step s = .next t) :
    t.others = s.nextTurn.others ∧ t.self.params = s.nextTurn.self.params := by
  obtain ⟨rfl, _⟩ | ⟨_, _, _, _, _, _, hm, rfl⟩ | ⟨_, _, _, _, hm, rfl⟩ := step_next h
  · exact ⟨rfl, rfl⟩
  · exact ⟨rfl, hm.frame.1⟩
  · exact ⟨rfl, hm.frame.1⟩

/-- Settles O27: a command is an operation of the selected peripheral, and a turn is a permutation. -/
theorem peripheralsShareNothing : Obligations.PeripheralsShareNothing := by
  refine ⟨fun i s others turns => ?_, fun i s t ht => ?_, fun s t ht => ⟨s.nextTurn_perm, (step_others ht).1⟩⟩
  · rw [exec_eq_onSelf, exec_eq_onSelf, State.onSelf, State.onSelf, Reply.andThen_assoc]
    rfl
  · obtain ⟨w, _, rfl⟩ := exec_next ht
    exact ⟨rfl, rfl⟩

/-- Settles O28: a turn permutes the parameters, and no move changes them. -/
theorem parametersNeverChange : Obligations.ParametersNeverChange := by
  intro s t ht
  obtain ⟨hothers, hparams⟩ := step_others ht
  rw [List.map_cons, hothers, hparams, ← List.map_cons]
  exact s.nextTurn_perm.map _

end Sys2Proof.Machine
end

section
/-! SUPPORT. Rules R19, R41, R49, R78, R95, R115, R117, R145 and R148: every step keeps the invariant. What the invariant says of
the registers, the buffer and the responses whatever the phase is (`Sound`, `Covers`) is kept apart from what it says of a phase;
each move then owes what its new phase asks for. -/

namespace Sys2Proof.Machine

/-! ### The invariant apart from the phase -/

/-- The register block, the buffer, DRDY and the responses so far are as they should be. -/
structure Sound (p : Config.Params) (m : List Host.Cell) (waiting : Option Byte) (b : Byte) (rs : List Response) :
    Prop where
  block : p.wf = true
  buffer : Memory.wf m = true
  drdy : waiting.isSome = true → bit b 4 = true
  responses : rs.all (fun r => legalStatus r.status) = true

/-- Control B has on what the cache shows on (rule R95). -/
structure Covers (p : Config.Params) (b : Byte) (c : Configuration) : Prop where
  tx : p.cached = true → c.transmitEnabled = true → bit b 3 = true
  rx : p.cached = true → c.receiveEnabled = true → bit b 4 = true

abbrev Peripheral.Sound (u : Peripheral) : Prop :=
  Machine.Sound u.params u.buffer u.uart.waiting u.uart.ctrlB u.responses

abbrev Peripheral.Covers (u : Peripheral) : Prop := Machine.Covers u.params u.uart.ctrlB u.cache

/-- Command `i` is in progress, its loop as it should be. -/
abbrev Peripheral.Running (u : Peripheral) (i : Instr) : Prop :=
  i.wf = true ∧ u.phase ∈ i.phases u.params ∧ u.x.loopOk u.phase i

section Parts

variable {u : Peripheral} {i : Instr} {r : Response}

theorem Peripheral.Inv.sound (h : u.Inv) : u.Sound := ⟨h.block, h.buffer, h.drdy, h.responses⟩

theorem Peripheral.Inv.covers (h : u.Inv) (hp : u.phase ∉ .flOn :: configureOff) : u.Covers :=
  ⟨fun hc => h.cacheTx hc fun hmem => hp (List.mem_cons_of_mem _ hmem), fun hc => h.cacheRx hc hp⟩

theorem Peripheral.Inv.running (h : u.Inv) (hi : decode u.x.cmd = .ok i) (hp : u.phase ≠ .idle) : u.Running i := by
  obtain hidle | ⟨j, hj, hrun⟩ := h.phase
  · exact absurd hidle hp
  · rw [hi] at hj
    cases hj
    exact hrun

theorem Sound.complete {p m w b rs} (h : Machine.Sound p m w b rs) (hr : legalStatus r.status = true) :
    Machine.Sound p m w b (rs ++ [r]) :=
  { h with responses := by simp [h.responses, hr] }

/-- The end of a command asks for a legal status only. -/
theorem Peripheral.Inv.complete (hs : u.Sound) (hc : u.Covers) (hr : legalStatus r.status = true) :
    (u.complete r).Inv where
  block := hs.block
  buffer := hs.buffer
  phase := .inl rfl
  ebyte := by simp
  drdy := hs.drdy
  received := by simp
  emptied := by simp
  txEnabled := by simp
  cacheTx := fun h _ => hc.tx h
  cacheRx := fun h _ => hc.rx h
  off := by simp [configureOff]
  flush := by simp
  flushOff := by simp
  flushOn := by simp
  readBack := by simp
  responses := (hs.complete hr).responses

/-- What a phase asks for; what it does not ask for is found by its name. -/
theorem Peripheral.Inv.goto {p : Phase} (hs : u.Sound) (hc : p ∉ .flOn :: configureOff → u.Covers)
    (hi : decode u.x.cmd = .ok i) (hrun : (u.goto p).Running i)
    (ebyte : p ∈ [.rxData, .rxnBuf] → u.x.ebyte &&& ErrorMask.hardware = u.x.ebyte := by simp)
    (received : p ∈ [.rxErr, .rxData] → u.uart.waiting.isSome = true := by simp)
    (emptied : p = .txData → u.uart.bempty = true ∧ u.uart.emptySeen = true := by simp)
    (txEnabled : p ∈ [.txnBuf, .txPoll, .txData] → u.uart.txen = true := by simp)
    (flOnTx : p = .flOn → u.params.cached = true → u.cache.transmitEnabled = true → u.uart.txen = true := by simp)
    (off : p ∈ configureOff → u.uart.ctrlB = bOff := by simp [configureOff])
    (flush : p ∈ [.flRead, .flOff, .flOn] → u.params.cached = true → u.cache.receiveEnabled = true := by simp)
    (flushOff : p = .flOff → lowByte u.x.tmp = u.uart.ctrlB ∧ u.uart.rxen = true := by simp)
    (flushOn : p = .flOn → Machine.flushOff (lowByte u.x.tmp) = u.uart.ctrlB := by simp)
    (readBack : p ∈ [.rbBaud, .rbBaudHigh] → u.x.cfg.extractLsb' 16 2 = u.uart.ctrlC.extractLsb' 4 2 := by simp) :
    (u.goto p).Inv where
  block := hs.block
  buffer := hs.buffer
  phase := .inr ⟨i, hi, hrun⟩
  ebyte := ebyte
  drdy := hs.drdy
  received := received
  emptied := emptied
  txEnabled := txEnabled
  cacheTx := fun h hp => by
    by_cases hfl : p = .flOn
    · exact flOnTx hfl h
    · exact (hc (by simpa [hfl] using hp)).tx h
  cacheRx := fun h hp => (hc hp).rx h
  off := off
  flush := flush
  flushOff := flushOff
  flushOn := flushOn
  readBack := readBack
  responses := hs.responses

theorem Peripheral.goto_self {p : Phase} (hp : u.phase = p) : u.goto p = u := by
  subst hp; rfl

end Parts

/-! ### The loops (rules R110 to R113) -/

/-- What the working registers hold inside the loop of a command, in whichever of its phases. -/
def Regs.inLoop (r : Regs) : Instr → Prop
  | .putc _ | .getc | .puts => r.err = ErrorMask.none
  | .putn length | .getn length => r.lim = length ∧ r.cnt < r.lim ∧ r.err = ErrorMask.none
  | .gets capacity _ => r.lim = capacity - 1 ∧ r.cnt < r.lim ∧ r.err = ErrorMask.none
  | .configure _ | .getconfig | .geterror | .flushrx => True

section Loops

variable {i : Instr} {r q : Regs} {p : Phase}

theorem Regs.inLoop_congr (h : r.inLoop i) (hlim : q.lim = r.lim := by rfl) (hcnt : q.cnt = r.cnt := by rfl)
    (herr : q.err = r.err := by rfl) : q.inLoop i := by
  cases i <;> simp only [Regs.inLoop, hlim, hcnt, herr] at h ⊢ <;> exact h

/-- The phases in which a loop is where `inLoop` says. -/
def loopPhases : Instr → List Phase
  | .putc _ => [.txPoll, .txData]
  | .putn _ | .puts => [.txnBuf, .txPoll, .txData]
  | .getc => [.rxPoll, .rxErr, .rxData]
  | .getn _ | .gets _ _ => [.rxPoll, .rxErr, .rxData, .rxnBuf]
  | .configure _ | .getconfig | .geterror | .flushrx => []

theorem loopOk_iff_inLoop (hp : p ∈ loopPhases i) : r.loopOk p i ↔ r.inLoop i := by
  cases i with
  | gets capacity delimiter =>
    have hne : p ≠ .rxsTerm := by rintro rfl; simp [loopPhases] at hp
    exact ⟨fun h => h.1 hp, fun h => ⟨fun _ => h, fun hp' => absurd hp' hne⟩⟩
  | putc | getc | putn | getn | puts => exact ⟨fun h => h hp, fun h _ => h⟩
  | configure | getconfig | geterror | flushrx => cases hp

theorem loopPhases_subset (prm : Config.Params) : loopPhases i ⊆ i.phases prm := by
  cases i <;> simp [loopPhases, Instr.phases]

theorem tx_loopPhases (ht : i.transmits = true) : .txPoll ∈ loopPhases i ∧ .txData ∈ loopPhases i := by
  cases i with
  | putc | putn | puts => simp [loopPhases]
  | _ => cases ht

theorem rx_loopPhases (hr : i.receives = true) :
    .rxPoll ∈ loopPhases i ∧ .rxErr ∈ loopPhases i ∧ .rxData ∈ loopPhases i := by
  cases i with
  | getc | getn | gets => simp [loopPhases]
  | _ => cases hr

/-- A command in its loop goes on to another phase of it. -/
theorem Peripheral.running_of_inLoop {u : Peripheral} (hi : i.wf = true) (hp : u.phase ∈ loopPhases i)
    (h : u.x.inLoop i) : u.Running i :=
  ⟨hi, loopPhases_subset u.params hp, (loopOk_iff_inLoop hp).2 h⟩

theorem Peripheral.Inv.inLoop {u : Peripheral} (h : u.Inv) (hi : decode u.x.cmd = .ok i) (hp : u.phase ∈ loopPhases i) :
    i.wf = true ∧ u.x.inLoop i := by
  obtain ⟨hwf, _, hloop⟩ := h.running hi (by rintro he; rw [he] at hp; cases i <;> simp [loopPhases] at hp)
  exact ⟨hwf, (loopOk_iff_inLoop hp).1 hloop⟩

end Loops

/-! ### The moves -/

section Moves

variable {u w : Peripheral} {i : Instr}

theorem disabledResponse_status (i : Instr) : i.disabledResponse.status = ErrorMask.disabled := by cases i <;> rfl

theorem legal_none : legalStatus ErrorMask.none = true := by decide

theorem legal_disabled : legalStatus i.disabledResponse.status = true := by
  rw [disabledResponse_status]; decide

/-- An open transmit gate is TXEN 1, in either variant. -/
theorem txen_of_inCtrlB (ht : i.transmits = true) (h : i.direction.inCtrlB u.uart.ctrlB = true) :
    u.uart.txen = true := by
  rw [Instr.direction, if_pos ht] at h
  exact h

theorem txen_of_inCache (hc : u.Covers) (hcached : u.params.cached = true) (ht : i.transmits = true)
    (h : i.direction.inCache u.cache = true) : u.uart.txen = true := by
  rw [Instr.direction, if_pos ht] at h
  exact hc.tx hcached h

/-- A gated command begins with its loop as it should be. -/
theorem started_inv (hs : u.Sound) (hc : u.Covers) (hi : decode u.x.cmd = .ok i) (hg : i.gated = true)
    (hwf : i.wf = true) (htx : i.transmits = true → u.uart.txen = true) : (i.started u).Inv := by
  cases i with
  | putc byte =>
    exact .goto (u := u.setX { u.x with dbyte := byte, err := 0 }) hs (fun _ => hc) hi
      (Peripheral.running_of_inLoop rfl (by simp [loopPhases]) rfl) (txEnabled := fun _ => htx rfl)
  | getc =>
    exact .goto (u := u.setX { u.x with err := 0 }) hs (fun _ => hc) hi
      (Peripheral.running_of_inLoop rfl (by simp [loopPhases]) rfl)
  | putn length =>
    rw [Instr.started]
    split
    next => exact .complete (u := u.setX { u.x with lim := length, cnt := 0, err := 0 }) hs hc legal_none
    next h0 =>
      exact .goto (u := u.setX { u.x with lim := length, cnt := 0, err := 0 }) hs (fun _ => hc) hi
        (Peripheral.running_of_inLoop rfl (by simp [loopPhases]) ⟨rfl, (BitVec.pos_iff_ne_zero length).2 h0, rfl⟩)
        (txEnabled := fun _ => htx rfl)
  | getn length =>
    rw [Instr.started]
    split
    next => exact .complete (u := u.setX { u.x with lim := length, cnt := 0, err := 0 }) hs hc legal_none
    next h0 =>
      exact .goto (u := u.setX { u.x with lim := length, cnt := 0, err := 0 }) hs (fun _ => hc) hi
        (Peripheral.running_of_inLoop rfl (by simp [loopPhases]) ⟨rfl, (BitVec.pos_iff_ne_zero length).2 h0, rfl⟩)
  | gets capacity delimiter =>
    have h0 : capacity ≠ 0 := by simpa [Instr.wf] using hwf
    rw [Instr.started]
    split
    next =>
      exact .goto (u := u.setX { u.x with lim := capacity - 1, cnt := 0, err := 0 }) hs (fun _ => hc) hi
        ⟨hwf, by simp [Instr.phases], by simp, fun _ => ⟨rfl, BitVec.le_def.2 (Nat.zero_le _), BitVec.zero_and⟩⟩
    next h1 =>
      have hlt : (0 : Len) < capacity - 1 := by revert h0 h1; bv_omega
      exact .goto (u := u.setX { u.x with lim := capacity - 1, cnt := 0, err := 0 }) hs (fun _ => hc) hi
        (Peripheral.running_of_inLoop hwf (by simp [loopPhases]) ⟨rfl, hlt, rfl⟩)
  | puts =>
    exact .goto (u := u.setX { u.x with cnt := 0, err := 0 }) hs (fun _ => hc) hi
      (Peripheral.running_of_inLoop rfl (by simp [loopPhases]) rfl) (txEnabled := fun _ => htx rfl)
  | _ => cases hg

/-- A phase outside CONFIGURE's and FLUSHRX's writes: the cache is covered. -/
theorem Peripheral.Inv.steady (h : u.Inv) {p : Phase} (hp : u.phase = p)
    (hn : p ∉ .flOn :: configureOff := by simp [configureOff]) : u.Covers :=
  h.covers (hp ▸ hn)

/-- After a write of Control B a byte waits only with RXEN 1 (rules R41 and R43). -/
theorem writeCtrlB_drdy (h : u.Inv) (v : Byte) (hw : (u.uart.writeCtrlB v).waiting.isSome = true) :
    bit (u.uart.writeCtrlB v).ctrlB 4 = true := by
  rw [Uart.writeCtrlB_ctrlB]
  rw [Uart.writeCtrlB_waiting] at hw
  cases hv : bit v 4 with
  | true => rfl
  | false =>
    rw [hv] at hw
    cases hr : u.uart.rxen with
    | true => simp [hr] at hw
    | false =>
      rw [hr] at hw
      exact absurd (h.drdy hw) (by simp [hr])

theorem configure_inv {c : Configuration} (h : u.Inv) (hi : decode u.x.cmd = .ok (.configure c))
    (hm : u.Moves (.configure c) w) : w.Inv := by
  have hs := h.sound
  have hoff {p : Phase} (hp : u.phase = p) (hn : p ∈ configureOff := by simp [configureOff]) :
      u.uart.ctrlB = bOff := h.off (hp ▸ hn)
  cases hm with
  | configure hp => exact .goto hs (fun _ => h.steady hp) hi ⟨rfl, by simp [Instr.phases], trivial⟩
  | cfgBOff hw hp =>
    exact .goto (u := (u.setUart (u.uart.writeCtrlB bOff)).emit _)
      ⟨hs.block, hs.buffer, writeCtrlB_drdy h _, hs.responses⟩
      (by simp [configureOff]) hi ⟨rfl, by simp [Instr.phases], trivial⟩ (off := fun _ => Uart.writeCtrlB_ctrlB _ _)
  | cfgA hw hp =>
    exact .goto (u := (u.setUart (u.uart.writeCtrlA _)).emit _) hs (by simp [configureOff]) hi
      ⟨rfl, by simp [Instr.phases], trivial⟩ (off := fun _ => hoff hp)
  | cfgC hw hp =>
    exact .goto (u := (u.setUart (u.uart.writeCtrlC _)).emit _) hs (by simp [configureOff]) hi
      ⟨rfl, by simp [Instr.phases], trivial⟩ (off := fun _ => hoff hp)
  | cfgBaud hw hp hbus =>
    exact .goto (u := (u.setUart (u.uart.writeBaud _)).emit _) hs (by simp [configureOff]) hi
      ⟨rfl, by simp [Instr.phases], trivial⟩ (off := fun _ => hoff hp)
  | cfgBaudHigh hw hp hbus =>
    exact .goto (u := (u.setUart (u.uart.writeBaudHigh _)).emit _) hs (by simp [configureOff]) hi
      ⟨rfl, by simp [Instr.phases, splitPhase, hbus], trivial⟩ (off := fun _ => hoff hp)
  | cfgBaudLow hw hp =>
    exact .goto (u := (u.setUart (u.uart.writeBaudLow _)).emit _) hs (by simp [configureOff]) hi
      ⟨rfl, by simp [Instr.phases], trivial⟩ (off := fun _ => hoff hp)
  | cfgBOn hw hp =>
    refine .complete ⟨hs.block, hs.buffer, writeCtrlB_drdy h _, hs.responses⟩ ⟨?_, ?_⟩ legal_none
    · intro hc
      simp_all
    · intro hc
      simp_all
  | gateAhead hg | cacheClosed hg | cacheOpen hg | gateClosed hg | gateOpen hg => cases hg
  | txAgain ht | txReady ht | rxAgain ht | rxReady ht | rxErr ht | rxByte ht => cases ht

/-- The read-back phases belong to the read-back variant. -/
theorem cached_false_of_readBack (h : u.phase ∈ Instr.getconfig.phases u.params) : u.params.cached = false := by
  by_contra hc
  simp [Instr.phases, hc] at h

theorem getconfig_inv (h : u.Inv) (hi : decode u.x.cmd = .ok .getconfig) (hm : u.Moves .getconfig w) : w.Inv := by
  have hs := h.sound
  have hcached (hne : u.phase ≠ .idle) : u.params.cached = false := by
    obtain ⟨_, hmem, _⟩ := h.running hi hne
    exact cached_false_of_readBack hmem
  have hrun {p : Phase} (hc : u.params.cached = false)
      (hp : p ∈ [.rbA, .rbB, .rbC, .rbBaud] ++ splitPhase u.params .rbBaudHigh) :
      Instr.getconfig.wf = true ∧ p ∈ Instr.getconfig.phases u.params ∧ True :=
    ⟨rfl, by rwa [Instr.phases, hc], trivial⟩
  cases hm with
  | cacheAnswered hp hc => exact .complete hs (h.steady hp) legal_none
  | getconfig hp hc => exact .goto hs (fun _ => h.steady hp) hi (hrun hc (by simp))
  | rbA hw hp =>
    exact .goto (u := ((u.setUart u.uart.sawCtrlA).emit _).setX _) hs (fun _ => h.steady hp) hi
      (hrun (hcached (by simp [hp])) (by simp))
  | rbB hw hp =>
    exact .goto (u := (u.emit _).setX _) hs (fun _ => h.steady hp) hi (hrun (hcached (by simp [hp])) (by simp))
  | rbC hw hp =>
    exact .goto (u := (u.emit _).setX _) hs (fun _ => h.steady hp) hi (hrun (hcached (by simp [hp])) (by simp))
      (readBack := fun _ => cfgFromC_parity _ _)
  | rbBaud hw hp => exact .complete (u := (u.useFree.emit _).setX _) hs (h.steady hp) legal_none
  | rbBaudLow hw hp hbus =>
    exact .goto (u := (u.emit _).setTmp _) hs (fun _ => h.steady hp) hi
      (hrun (hcached (by simp [hp])) (by simp [splitPhase, hbus])) (readBack := fun _ => h.readBack (by simp [hp]))
  | rbBaudHigh hw hp => exact .complete (u := (u.useFree.emit _).setX _) hs (h.steady hp) legal_none
  | gateAhead hg | cacheClosed hg | cacheOpen hg | gateClosed hg | gateOpen hg => cases hg
  | txAgain ht | txReady ht | rxAgain ht | rxReady ht | rxErr ht | rxByte ht => cases ht

theorem geterror_inv (h : u.Inv) (hi : decode u.x.cmd = .ok .geterror) (hm : u.Moves .geterror w) : w.Inv := by
  cases hm with
  | geterror hp => exact .goto h.sound (fun _ => h.steady hp) hi ⟨rfl, by simp [Instr.phases], trivial⟩
  | geA hw hp =>
    exact .complete (u := ((u.setUart u.uart.sawCtrlA).emit _).setTmp _) h.sound (h.steady hp)
      (legalStatus_of_hardware (decErr_hardware _))
  | gateAhead hg | cacheClosed hg | cacheOpen hg | gateClosed hg | gateOpen hg => cases hg
  | txAgain ht | txReady ht | rxAgain ht | rxReady ht | rxErr ht | rxByte ht => cases ht

theorem lowByte_setWidth (v : Byte) : lowByte (v.setWidth 16) = v := by
  rw [lowByte, BitVec.extractLsb'_setWidth_of_le (by decide), BitVec.extractLsb'_eq_self]

theorem flushOff_bit_transmit (v : Byte) : bit (flushOff v) 3 = bit v 3 := by
  simp [flushOff]

theorem flushOn_bits (v : Byte) : bit (flushOn v) 3 = bit v 3 ∧ bit (flushOn v) 4 = true := by
  simp [flushOn]

theorem flushrx_inv (h : u.Inv) (hi : decode u.x.cmd = .ok .flushrx) (hm : u.Moves .flushrx w) : w.Inv := by
  have hs := h.sound
  cases hm with
  | flushSkipped hp => exact .complete hs (h.steady hp) legal_none
  | flushrx hp hr =>
    exact .goto hs (fun _ => h.steady hp) hi ⟨rfl, by simp [Instr.phases], trivial⟩ (flush := fun _ => hr)
  | flDisabled hw hp => exact .complete (u := (u.emit _).setTmp _) hs (h.steady hp) legal_none
  | flRead hw hp hr =>
    have hflush := h.flush (by simp [hp])
    have hrxen : u.uart.rxen = true := by
      cases hc : u.params.cached with
      | true => exact (h.steady hp).rx hc (hflush hc)
      | false => exact hr hc
    exact .goto (u := (u.emit _).setTmp _) hs (fun _ => h.steady hp) hi ⟨rfl, by simp [Instr.phases], trivial⟩
      (flush := fun _ => hflush) (flushOff := fun _ => ⟨lowByte_setWidth _, hrxen⟩)
  | flOff hw hp =>
    obtain ⟨htmp, hrxen⟩ := h.flushOff hp
    refine .goto (u := (u.setUart (u.uart.writeCtrlB _)).emit _) ⟨hs.block, hs.buffer, writeCtrlB_drdy h _, hs.responses⟩
      (by simp) hi ⟨rfl, by simp [Instr.phases], trivial⟩ (flush := fun _ => h.flush (by simp [hp]))
      (flushOn := fun _ => (Uart.writeCtrlB_ctrlB _ _).symm) (flOnTx := fun _ hc ht => ?_)
    have htx := (h.steady hp).tx hc ht
    simp only [Peripheral.emit_uart, Peripheral.setUart_uart, Uart.txen, Uart.writeCtrlB_ctrlB, htmp, flushOff_bit_transmit]
    exact htx
  | flOn hw hp =>
    have htmp := h.flushOn hp
    obtain ⟨h3, h4⟩ := flushOn_bits (lowByte u.x.tmp)
    refine .complete (u := (u.setUart (u.uart.writeCtrlB _)).emit _)
      ⟨hs.block, hs.buffer, writeCtrlB_drdy h _, hs.responses⟩ ⟨fun hc ht => ?_, fun _ _ => ?_⟩ legal_none
    · have htx := h.cacheTx hc (by simp [hp, configureOff]) ht
      rw [Uart.txen, ← htmp, flushOff_bit_transmit] at htx
      exact (congrArg (bit · 3) (Uart.writeCtrlB_ctrlB _ _)).trans (h3.trans htx)
    · exact (congrArg (bit · 4) (Uart.writeCtrlB_ctrlB _ _)).trans h4
  | gateAhead hg | cacheClosed hg | cacheOpen hg | gateClosed hg | gateOpen hg => cases hg
  | txAgain ht | txReady ht | rxAgain ht | rxReady ht | rxErr ht | rxByte ht => cases ht

/-- DATA is read: nothing waits any more. -/
theorem consumed_sound (hs : u.Sound) (d : Byte) (r : Regs) :
    (((u.setUart u.uart.consume).emit (.r8 .data d)).setX r).Sound :=
  ⟨hs.block, hs.buffer, by simp, hs.responses⟩

/-- A byte is stored in the buffer. -/
theorem stored_sound (hs : u.Sound) (i : Len) (v : Byte) (r : Regs) :
    (((u.setBuffer (Memory.write u.buffer i.toNat v)).emit (.bw i v)).setX r).Sound :=
  ⟨hs.block, Memory.wf_write hs.buffer _ _, hs.drdy, hs.responses⟩

theorem hardware_none : ErrorMask.none &&& ErrorMask.hardware = ErrorMask.none := by decide

/-- Counting one more byte below a limit. -/
theorem count_le_of_lt {cnt lim : Len} (h : cnt < lim) : cnt + 1 ≤ lim := by bv_omega

theorem gated_inv (hg : i.gated = true) (h : u.Inv) (hi : decode u.x.cmd = .ok i) (hm : u.Moves i w) : w.Inv := by
  have hs := h.sound
  cases hm with
  | gateAhead _ hwf hp hc =>
    refine .goto hs (fun _ => h.steady hp) hi ⟨hwf, ?_, ?_⟩
    · cases i <;> simp_all [Instr.phases, gatePhases, Instr.transmits, Instr.receives]
    · cases i <;> simp [Regs.loopOk]
  | cacheClosed _ hwf hp hc => exact .complete hs (h.steady hp) legal_disabled
  | cacheOpen _ hwf hp hc hopen =>
    exact started_inv hs (h.steady hp) hi hg hwf fun ht => txen_of_inCache (h.steady hp) hc ht hopen
  | gateClosed _ hwf hw hp => exact .complete (u := (u.emit _).setTmp _) hs (h.steady hp) legal_disabled
  | gateOpen _ hwf hw hp hopen =>
    exact started_inv (u := (u.emit _).setTmp _) hs (h.steady hp) hi hg hwf fun ht => txen_of_inCtrlB ht hopen
  | txAgain ht hw hp hb =>
    obtain ⟨hpoll, _⟩ := tx_loopPhases ht
    obtain ⟨hwf, hloop⟩ := h.inLoop hi (hp ▸ hpoll)
    rw [← Peripheral.goto_self (u := ((u.setUart u.uart.sawCtrlA).emit _).setTmp _) hp]
    exact .goto hs (fun _ => h.steady hp) hi (Peripheral.running_of_inLoop hwf hpoll (Regs.inLoop_congr hloop))
      (txEnabled := fun _ => h.txEnabled (by simp [hp]))
  | txReady ht hw hp hb =>
    obtain ⟨hpoll, hdata⟩ := tx_loopPhases ht
    obtain ⟨hwf, hloop⟩ := h.inLoop hi (hp ▸ hpoll)
    exact .goto (u := ((u.setUart u.uart.sawCtrlA).emit _).setTmp _) hs (fun _ => h.steady hp) hi
      (Peripheral.running_of_inLoop hwf hdata (Regs.inLoop_congr hloop))
      (emptied := fun _ => ⟨hb, hb⟩) (txEnabled := fun _ => h.txEnabled (by simp [hp]))
  | rxAgain hr hw hp hd =>
    obtain ⟨hpoll, _⟩ := rx_loopPhases hr
    obtain ⟨hwf, hloop⟩ := h.inLoop hi (hp ▸ hpoll)
    rw [← Peripheral.goto_self (u := ((u.setUart u.uart.sawCtrlA).emit _).setTmp _) hp]
    exact .goto hs (fun _ => h.steady hp) hi (Peripheral.running_of_inLoop hwf hpoll (Regs.inLoop_congr hloop))
  | rxReady hr hw hp hd =>
    obtain ⟨hpoll, herr, _⟩ := rx_loopPhases hr
    obtain ⟨hwf, hloop⟩ := h.inLoop hi (hp ▸ hpoll)
    exact .goto (u := ((u.setUart u.uart.sawCtrlA).emit _).setTmp _) hs (fun _ => h.steady hp) hi
      (Peripheral.running_of_inLoop hwf herr (Regs.inLoop_congr hloop)) (received := fun _ => hd)
  | rxErr hr hw hp =>
    obtain ⟨_, herr, hdata⟩ := rx_loopPhases hr
    obtain ⟨hwf, hloop⟩ := h.inLoop hi (hp ▸ herr)
    exact .goto (u := ((u.setUart u.uart.sawCtrlA).emit _).setX _) hs (fun _ => h.steady hp) hi
      (Peripheral.running_of_inLoop hwf hdata (Regs.inLoop_congr hloop)) (ebyte := fun _ => decErr_hardware _)
      (received := fun _ => h.received (by simp [hp]))
  | putcSent hw hp hb =>
    have herr : u.x.err = ErrorMask.none := (h.inLoop hi (by simp [hp, loopPhases])).2
    exact .complete (u := (u.setUart (u.uart.handOver _)).emit _) hs (h.steady hp) (herr ▸ legal_none)
  | putnMore hw hp hb hlt =>
    obtain ⟨hwf, hlim, _, herr⟩ := h.inLoop hi (by simp [hp, loopPhases])
    exact .goto (u := ((u.setUart (u.uart.handOver _)).emit _).setX _) hs (fun _ => h.steady hp) hi
      (Peripheral.running_of_inLoop hwf (by simp [loopPhases]) ⟨hlim, hlt, herr⟩)
      (txEnabled := fun _ => h.txEnabled (by simp [hp]))
  | putnDone hw hp hb hlt =>
    obtain ⟨_, _, _, herr⟩ := h.inLoop hi (by simp [hp, loopPhases])
    exact .complete (u := ((u.setUart (u.uart.handOver _)).emit _).setX _) hs (h.steady hp) (herr ▸ legal_none)
  | putsMore hw hp hb hcnt =>
    obtain ⟨hwf, hloop⟩ := h.inLoop hi (by simp [hp, loopPhases])
    exact .goto (u := ((u.setUart (u.uart.handOver _)).emit _).setX _) hs (fun _ => h.steady hp) hi
      (Peripheral.running_of_inLoop hwf (by simp [loopPhases]) hloop)
      (txEnabled := fun _ => h.txEnabled (by simp [hp]))
  | putnByte hp hv =>
    obtain ⟨hwf, hloop⟩ := h.inLoop hi (by simp [hp, loopPhases])
    exact .goto (u := (u.emit _).setX _) hs (fun _ => h.steady hp) hi
      (Peripheral.running_of_inLoop hwf (by simp [loopPhases]) (Regs.inLoop_congr hloop))
      (txEnabled := fun _ => h.txEnabled (by simp [hp]))
  | putsByte hp hv hne =>
    obtain ⟨hwf, hloop⟩ := h.inLoop hi (by simp [hp, loopPhases])
    exact .goto (u := (u.emit _).setX _) hs (fun _ => h.steady hp) hi
      (Peripheral.running_of_inLoop hwf (by simp [loopPhases]) (Regs.inLoop_congr hloop))
      (txEnabled := fun _ => h.txEnabled (by simp [hp]))
  | putsEnd hp hv h0 =>
    have herr : u.x.err = ErrorMask.none := (h.inLoop hi (by simp [hp, loopPhases])).2
    exact .complete (u := (u.emit _).setX _) hs (h.steady hp) (herr ▸ legal_none)
  | getcByte hw hp hd =>
    have herr : u.x.err = ErrorMask.none := (h.inLoop hi (by simp [hp, loopPhases])).2
    refine .complete (consumed_sound hs _ _) (h.steady hp) (legalStatus_of_hardware ?_)
    rw [herr]
    exact aggregate_hardware hardware_none (h.ebyte (by simp [hp]))
  | rxByte hr hn hw hp hd =>
    obtain ⟨_, _, hdata⟩ := rx_loopPhases hr
    obtain ⟨hwf, hloop⟩ := h.inLoop hi (hp ▸ hdata)
    refine .goto (consumed_sound hs _ _) (fun _ => h.steady hp) hi
      (Peripheral.running_of_inLoop hwf ?_ (Regs.inLoop_congr hloop)) (ebyte := fun _ => h.ebyte (by simp [hp]))
    cases i <;> simp_all [loopPhases, Instr.receives]
  | getnMore hp hm he hlt =>
    obtain ⟨hwf, hlim, _, herr⟩ := h.inLoop hi (by simp [hp, loopPhases])
    exact .goto (stored_sound hs _ _ _) (fun _ => h.steady hp) hi
      (Peripheral.running_of_inLoop hwf (by simp [loopPhases]) ⟨hlim, hlt, by simp [he, herr]⟩)
  | getnDone hp hm =>
    obtain ⟨_, _, _, herr⟩ := h.inLoop hi (by simp [hp, loopPhases])
    refine .complete (stored_sound hs _ _ _) (h.steady hp) (legalStatus_of_hardware ?_)
    rw [herr]
    exact aggregate_hardware hardware_none (h.ebyte (by simp [hp]))
  | getsMore h0 hp hm he hlt =>
    obtain ⟨hwf, hlim, _, herr⟩ := h.inLoop hi (by simp [hp, loopPhases])
    exact .goto (stored_sound hs _ _ _) (fun _ => h.steady hp) hi
      (Peripheral.running_of_inLoop hwf (by simp [loopPhases]) ⟨hlim, hlt, by simp [he, herr]⟩)
  | getsLast h0 hp hm =>
    obtain ⟨hwf, hlim, hlt, herr⟩ := h.inLoop hi (by simp [hp, loopPhases])
    refine .goto (stored_sound hs _ _ _) (fun _ => h.steady hp) hi
      ⟨hwf, by simp [Instr.phases], by simp, fun _ => ⟨hlim, count_le_of_lt hlt, ?_⟩⟩
    show aggregate u.x.err u.x.ebyte &&& _ = aggregate u.x.err u.x.ebyte
    rw [herr]
    exact aggregate_hardware hardware_none (h.ebyte (by simp [hp]))
  | rxsTerm h0 hp hm =>
    obtain ⟨_, _, _, hterm⟩ := h.running hi (by simp [hp])
    obtain ⟨_, _, herr⟩ := hterm hp
    exact .complete (stored_sound hs _ _ u.x) (h.steady hp) (legalStatus_of_hardware herr)
  | _ => cases hg

/-- Every move keeps the invariant. -/
theorem Peripheral.Moves.inv (h : u.Inv) (hi : decode u.x.cmd = .ok i) (hm : u.Moves i w) : w.Inv := by
  cases i with
  | configure c => exact configure_inv h hi hm
  | getconfig => exact getconfig_inv h hi hm
  | geterror => exact geterror_inv h hi hm
  | flushrx => exact flushrx_inv h hi hm
  | putc | getc | putn | getn | gets | puts => exact gated_inv rfl h hi hm

end Moves

/-! ### The line side, the command port and the turn -/

section Prepare

variable {u : Peripheral}

/-- While RXEN is 0 no action of the line side lets a byte wait (rule R41). -/
theorem Uart.lineActs_drdy {v : Uart} (as : List LineAction) (h : v.waiting.isSome = true → v.rxen = true) :
    (v.lineActs as).waiting.isSome = true → (v.lineActs as).rxen = true := by
  induction as generalizing v with
  | nil => exact h
  | cons a as ih =>
    refine ih ?_
    rw [Uart.rxen, (Uart.lineAct_frame v a).1]
    cases a with
    | deliver byte f o p =>
      rw [Uart.lineAct]
      split
      next hr => exact fun _ => hr
      next => exact h
    | bufferEmpty value =>
      cases value with
      | true => exact h
      | false => rw [Uart.lineAct]; split <;> exact h
    | _ => exact h

/-- The line side's turn keeps the invariant (rules R40, R41 and R60). -/
theorem Peripheral.Inv.lineTurn (h : u.Inv) : u.lineTurn.Inv where
  block := h.block
  buffer := h.buffer
  phase := h.phase
  ebyte := h.ebyte
  drdy := Uart.lineActs_drdy _ h.drdy
  received := fun hp => Uart.lineActs_waiting _ (h.received hp)
  emptied := fun hp => Uart.lineActs_empty _ (h.txEnabled (by simp_all)) (h.emptied hp)
  txEnabled := fun hp => (Uart.lineActs_txen _ _).trans (h.txEnabled hp)
  cacheTx := fun hc hp ht => (Uart.lineActs_txen _ _).trans (h.cacheTx hc hp ht)
  cacheRx := fun hc hp hr => (Uart.lineActs_rxen _ _).trans (h.cacheRx hc hp hr)
  off := fun hp => (Uart.lineActs_ctrlB _ _).trans (h.off hp)
  flush := h.flush
  flushOff := fun hp => by simpa using h.flushOff hp
  flushOn := fun hp => by simpa using h.flushOn hp
  readBack := fun hp => by simpa using h.readBack hp
  responses := h.responses

/-- A command accepted in `IDLE` keeps the invariant: only the latched word and the buffer change. -/
theorem Peripheral.Inv.accept (h : u.Inv) (hp : u.phase = .idle) (c : HostCommand) (rest : List HostCommand) :
    (u.accept c rest).Inv :=
  { h with
    buffer := by
      rw [Peripheral.accept_buffer]
      split
      next => exact Memory.wf_ofBytes _
      next => exact h.buffer
    phase := .inl hp
    ebyte := by simp [hp]
    flushOff := by simp [hp]
    flushOn := by simp [hp]
    readBack := by simp [hp] }

theorem disjointBlocks_symm {p q : Config.Params} (h : disjointBlocks p q) : disjointBlocks q p := Or.symm h

/-- The invariant of the machine does not depend on the order of the peripherals. -/
theorem State.Inv.of_perm {s t : State} (h : s.Inv) (hperm : (t.self :: t.others).Perm (s.self :: s.others)) :
    t.Inv where
  each := fun v hv => h.each v (hperm.subset hv)
  blocks := (hperm.pairwise_iff fun hb => disjointBlocks_symm hb).2 h.blocks

/-- The selected peripheral replaced by one that meets the invariant and has its parameters. -/
theorem State.Inv.replace {s : State} (h : s.Inv) {w : Peripheral} (hw : w.Inv) (hparams : w.params = s.self.params) :
    ({ s with self := w } : State).Inv where
  each := List.forall_mem_cons.2 ⟨hw, fun v hv => h.each v (List.mem_cons_of_mem _ hv)⟩
  blocks := by
    obtain ⟨hself, hothers⟩ := List.pairwise_cons.1 h.blocks
    exact List.pairwise_cons.2 ⟨fun v hv => hparams ▸ hself v hv, hothers⟩

theorem State.Inv.self {s : State} (h : s.Inv) : s.self.Inv := h.each _ List.mem_cons_self

theorem State.Inv.prepare {s : State} (h : s.Inv) : s.prepare.Inv :=
  have hturn := h.of_perm s.nextTurn_perm
  hturn.replace hturn.self.lineTurn rfl

end Prepare

/-- Settles O57: the turn, the line side and the acceptance keep the invariant, and so does every move of a command. -/
theorem stepKeepsTheInvariant : Obligations.StepKeepsTheInvariant := by
  intro s t hs ht
  have h := hs.prepare
  obtain ⟨rfl, _⟩ | ⟨c, rest, i, w, hp, hi, hm, rfl⟩ | ⟨i, w, _, hi, hm, rfl⟩ := step_next ht
  · exact h
  · exact h.replace (hm.inv (h.self.accept hp c rest) hi) hm.frame.1
  · exact h.replace (hm.inv h.self hi) hm.frame.1

end Sys2Proof.Machine
end

section
/-! SUPPORT. Rules R35, R36, R45, R53, R80, R90, R112, R113, R116, R140 and R148: where a state that meets the invariant can stop, and
that the state after reset meets it. -/

namespace Sys2Proof.Machine

/-! ### Where a step stops -/

/-- What a step that faults has met: a latched word that is no command, or a fault of the command accepted or in progress. -/
theorem step_fault {s : State} {f : Fault} (h : step s = .fault f) :
    (s.prepare.self.phase ≠ .idle ∧ ∃ e, decode s.prepare.self.x.cmd = .error e) ∨
    (∃ c rest i, s.prepare.self.phase = .idle ∧ (s.prepare.self.accept c rest).Faults i f) ∨
    (∃ i, decode s.prepare.self.x.cmd = .ok i ∧ s.prepare.self.phase ≠ .idle ∧ s.prepare.self.Faults i f) := by
  unfold step State.fetch at h
  by_cases hp : s.prepare.self.phase = .idle
  · rw [if_pos hp] at h
    cases hport : s.prepare.self.port with
    | nil => rw [hport] at h; cases h
    | cons c rest =>
      cases hd : decode c.word with
      | error e => simp only [hport, hd] at h; cases h
      | ok i => simp only [hport, hd] at h; exact .inr (.inl ⟨c, rest, i, hp, exec_fault h⟩)
  · rw [if_neg hp] at h
    cases hd : decode s.prepare.self.x.cmd with
    | error e => exact .inl ⟨hp, e, rfl⟩
    | ok i => simp only [hd] at h; exact .inr (.inr ⟨i, rfl, hp, exec_fault h⟩)

/-- What a step that is refused has met: a word at the port that is no command, or a refusal of the command accepted or in
progress. -/
theorem step_refused {s : State} {r : Refusal} (h : step s = .refused r) :
    (s.prepare.self.phase = .idle ∧ ∃ e, r = .reservedWord e) ∨
    (∃ c rest i, s.prepare.self.phase = .idle ∧ (s.prepare.self.accept c rest).Refuses i r) ∨
    (∃ i, decode s.prepare.self.x.cmd = .ok i ∧ s.prepare.self.phase ≠ .idle ∧ s.prepare.self.Refuses i r) := by
  unfold step State.fetch at h
  by_cases hp : s.prepare.self.phase = .idle
  · rw [if_pos hp] at h
    cases hport : s.prepare.self.port with
    | nil => rw [hport] at h; cases h
    | cons c rest =>
      cases hd : decode c.word with
      | error e => simp only [hport, hd] at h; cases h; exact .inl ⟨hp, e, rfl⟩
      | ok i => simp only [hport, hd] at h; exact .inr (.inl ⟨c, rest, i, hp, exec_refused h⟩)
  · rw [if_neg hp] at h
    cases hd : decode s.prepare.self.x.cmd with
    | error e => simp only [hd] at h; cases h
    | ok i => simp only [hd] at h; exact .inr (.inr ⟨i, rfl, hp, exec_refused h⟩)

section Stops

variable {u : Peripheral} {i : Instr} {f : Fault} {r : Refusal}

/-- No fault in the step that accepts a command. -/
theorem Peripheral.Faults.not_idle (h : u.Faults i f) : u.phase ≠ .idle := by
  intro hp
  cases h with
  | parity hmem => simp [hp] at hmem
  | otherCommand hmem => simp [hp] at hmem

/-- The one fault of a command in progress, with the invariant: the parity pattern 1 (rule R90). -/
theorem Peripheral.Faults.parity_of_inv (h : u.Inv) (hi : decode u.x.cmd = .ok i) (hf : u.Faults i f) :
    f = .parityNotValid ∧ u.params.cached = false ∧ u.phase ∈ [.rbBaud, .rbBaudHigh] ∧
      u.uart.ctrlC.extractLsb' 4 2 = 1 := by
  obtain ⟨_, hmem, _⟩ := h.running hi hf.not_idle
  cases hf with
  | parity hp hk => exact ⟨rfl, cached_false_of_readBack hmem, hp, (h.readBack hp).symm.trans hk⟩
  | otherCommand hp => exact absurd (List.mem_cons_of_mem _ hmem) hp

/-- The one refusal of a command that is accepted, with the invariant: capacity 0 (rule R112). -/
theorem Peripheral.Refuses.capacity_of_idle (h : u.Inv) (hp : u.phase = .idle) (hr : u.Refuses i r) :
    r = .capacityZero := by
  cases hr with
  | badBlock hw => exact absurd (h.block.symm.trans hw) (by decide)
  | capacityZero => rfl
  | notReady hp' | notEmpty hp' => exact absurd (hp.symm.trans hp') (by decide)
  | outside hmem | unterminated hmem => simp [hp] at hmem

/-- The refusals of a command in progress, with the invariant: the buffer has no such index, or the string no end (rules R113
and R116). -/
theorem Peripheral.Refuses.buffer_of_inv (h : u.Inv) (hi : decode u.x.cmd = .ok i) (hp : u.phase ≠ .idle)
    (hr : u.Refuses i r) :
    ((∃ k, r = .outsideBuffer k) ∧ Memory.read u.buffer u.x.cnt.toNat = none) ∨
      (r = .unterminatedString ∧ u.phase ∈ [.txnBuf, .txData]) := by
  cases hr with
  | badBlock hw => exact absurd (h.block.symm.trans hw) (by decide)
  | capacityZero hwf => exact absurd ((h.running hi hp).1.symm.trans hwf) (by decide)
  | notReady hp' hd => exact absurd (h.received (by simp [hp'])) (by simp [hd])
  | notEmpty hp' hb => exact absurd ((h.emptied hp').1.symm.trans hb) (by decide)
  | outside _ hm => exact .inl ⟨⟨_, rfl⟩, hm⟩
  | unterminated hmem => exact .inr ⟨rfl, hmem⟩

end Stops

/-- Settles O58: the invariant excludes every other fault and refusal of a command. -/
theorem onlyNamedStops : Obligations.OnlyNamedStops := by
  intro s hs
  have h := hs.prepare.self
  refine ⟨fun f hf => ?_, fun r hr => ?_⟩
  · obtain ⟨hp, e, he⟩ | ⟨_, _, _, hp, hf⟩ | ⟨i, hi, _, hf⟩ := step_fault hf
    · obtain ⟨j, hj, _⟩ := h.phase.resolve_left hp
      exact absurd (he.symm.trans hj) nofun
    · exact absurd hp hf.not_idle
    · exact hf.parity_of_inv h hi
  · obtain ⟨hp, e, rfl⟩ | ⟨c, rest, _, hp, hr⟩ | ⟨i, hi, hp, hr⟩ := step_refused hr
    · exact .inl ⟨⟨e, rfl⟩, hp⟩
    · exact .inr (.inl ⟨hr.capacity_of_idle (h.accept hp c rest) hp, hp⟩)
    · exact .inr (.inr (hr.buffer_of_inv h hi hp))

/-! ### After reset (rules R45 and R140) -/

/-- The six fields of Control A that the stored bits give (rule R27). -/
theorem ctrlA_bits (v : Uart) :
    bit v.ctrlA 7 = v.waiting.isSome ∧ bit v.ctrlA 6 = v.txc ∧ bit v.ctrlA 5 = v.bempty ∧ bit v.ctrlA 4 = v.ferr ∧
      bit v.ctrlA 3 = v.ovr ∧ bit v.ctrlA 2 = v.perr ∧ bit v.ctrlA 1 = v.u2x ∧ bit v.ctrlA 0 = v.mpcm :=
  ctrlAByte_bits _ _ _ _ _ _ _ _

/-- Settles O55: every peripheral after reset is the one its parameters give. -/
theorem resetState : Obligations.ResetState := by
  intro p more
  refine ⟨congrArg (p :: ·) ((List.map_map).trans (List.map_id more)), fun u hu => ?_⟩
  obtain ⟨q, rfl⟩ : ∃ q, u = Peripheral.atReset q := by
    simp only [State.atReset, List.mem_cons, List.mem_map] at hu
    obtain rfl | ⟨q, _, rfl⟩ := hu
    · exact ⟨p, rfl⟩
    · exact ⟨q, rfl⟩
  obtain ⟨h7, _, _, _, _, _, h1, h0⟩ := ctrlA_bits (Uart.atReset q)
  exact ⟨rfl, rfl, (by decide : Configuration.startup.pack = 0), rfl, rfl, rfl, h7, h1, h0, rfl, rfl, rfl, rfl, rfl⟩

theorem atReset_inv {p : Config.Params} (hw : p.wf = true) : (Peripheral.atReset p).Inv where
  block := hw
  buffer := rfl
  phase := .inl rfl
  ebyte := by simp [Peripheral.atReset]
  drdy := by simp [Peripheral.atReset, Uart.atReset]
  received := by simp [Peripheral.atReset]
  emptied := by simp [Peripheral.atReset]
  txEnabled := by simp [Peripheral.atReset]
  cacheTx := by simp [Peripheral.atReset, Configuration.startup]
  cacheRx := by simp [Peripheral.atReset, Configuration.startup]
  off := by simp [Peripheral.atReset, configureOff]
  flush := by simp [Peripheral.atReset]
  flushOff := by simp [Peripheral.atReset]
  flushOn := by simp [Peripheral.atReset]
  readBack := by simp [Peripheral.atReset]
  responses := rfl

theorem State.atReset_inv {p : Config.Params} {more : List Config.Params} (hw : ∀ q ∈ p :: more, q.wf = true)
    (hd : (p :: more).Pairwise disjointBlocks) : (State.atReset p more).Inv where
  each := by
    intro u hu
    obtain ⟨q, hq, rfl⟩ := List.mem_map.1 (show u ∈ (p :: more).map Peripheral.atReset from hu)
    exact Machine.atReset_inv (hw q hq)
  blocks := List.pairwise_map (f := Peripheral.atReset) (l := p :: more).2 hd

/-- Settles O56: reset gives each peripheral the invariant, and the register values of log entry 2 read back as the startup
configuration. -/
theorem resetMeetsTheInvariants : Obligations.ResetMeetsTheInvariants := by
  refine ⟨fun p more => State.atReset_inv, State.atReset_inv (by decide) (by simp [Config.morePorts]), ?_⟩
  intro u hu hc
  obtain rfl : u = State.reset.self := by simpa [State.reset, State.atReset, Config.morePorts] using hu
  rw [if_neg (by decide), if_neg (by decide)]
  decide

end Sys2Proof.Machine
end

section
/-! SUPPORT. Rules R65, R90, R91 and R95: what read-back decodes depends on four stored fields only, and in the cached variant it
stays the cached Configuration. -/

namespace Sys2Proof.Machine

/-! ### What read-back decodes (rule R90) -/

/-- Read-back depends on U2X, Control B, Control C and BAUD alone. -/
theorem Uart.configuration_congr {v v' : Uart} (hu : v.u2x = v'.u2x) (hb : v.ctrlB = v'.ctrlB) (hk : v.ctrlC = v'.ctrlC)
    (hd : v.baud = v'.baud) : v.configuration = v'.configuration := by
  obtain ⟨_, _, _, _, _, _, h1, _⟩ := ctrlA_bits v
  obtain ⟨_, _, _, _, _, _, h1', _⟩ := ctrlA_bits v'
  simp only [Uart.configuration, decCfg, h1, h1', hu, hb, hk, hd]

@[simp] theorem Uart.configuration_lineActs (v : Uart) (as : List LineAction) :
    (v.lineActs as).configuration = v.configuration :=
  Uart.configuration_congr (by simp) (by simp) (by simp) (by simp)

/-- Registers that hold what CONFIGURE writes read back as its Configuration (rule R91). -/
theorem Uart.configuration_of_configured {v : Uart} {c : Configuration} {csz8 : BitVec 2} (hu : v.u2x = c.useDoubleSpeed)
    (hb : v.ctrlB = encB c) (hk : v.ctrlC = encC csz8 c) (hd : v.baud = c.baudDivisor) : v.configuration = some c := by
  obtain ⟨_, _, _, _, _, _, h1, _⟩ := ctrlA_bits v
  rw [Uart.configuration, hb, hk, hd]
  exact decCfg_encoded c csz8 (h1.trans hu)

/-! ### The two halves of BAUD (rule R51) -/

theorem highByte_encBaud (c : Configuration) :
    (highByte (encBaud c)).extractLsb' 0 4 = c.baudDivisor.extractLsb' 8 4 := by
  ext i hi
  simp [highByte, encBaud, show 8 + i < 16 by omega, show i < 8 by omega]

theorem lowByte_encBaud (c : Configuration) : lowByte (encBaud c) = c.baudDivisor.extractLsb' 0 8 :=
  BitVec.extractLsb'_setWidth_of_le (by decide)

theorem baud_halves (d : BitVec 12) : d.extractLsb' 8 4 ++ d.extractLsb' 0 8 = d :=
  BitVec.extractLsb'_append_extractLsb' (w := 4) (len := 8)

/-! ### The phases in which cache and hardware may differ -/

section Synced

variable {u w : Peripheral} {i : Instr} {c : Configuration}

/-- Outside CONFIGURE and FLUSHRX's off interval the cache is what read-back would decode. -/
theorem Peripheral.synced_iff (hp : u.phase ∉ .flOn :: .cfgBOff :: configureOff) :
    u.Synced ↔ (u.params.cached = true → u.uart.configuration = some u.cache) := by
  have hfl : u.phase ≠ .flOn := fun h => hp (h ▸ List.mem_cons_self)
  rw [Peripheral.Synced, if_neg (fun h => hp (List.mem_cons_of_mem _ h)), if_neg hfl]

/-- Inside CONFIGURE the registers written so far hold its operand. -/
theorem Peripheral.synced_configure_iff (hp : u.phase ∈ .cfgBOff :: configureOff)
    (hi : decode u.x.cmd = .ok (.configure c)) :
    u.Synced ↔ (u.params.cached = true → u.uart.agreesUpTo u.params.csz8 c u.phase) := by
  rw [Peripheral.Synced, if_pos hp, hi]
  refine ⟨fun h hc => h hc c rfl, fun h hc d hd => ?_⟩
  cases hd
  exact h hc

theorem Peripheral.synced_flOn_iff (hp : u.phase = .flOn) :
    u.Synced ↔ (u.params.cached = true →
      { u.uart with ctrlB := flushOn u.uart.ctrlB }.configuration = some u.cache) := by
  rw [Peripheral.Synced, if_neg (by rw [hp]; decide), if_pos hp]

/-- The phases of the other eight commands. -/
theorem phases_outside (hc : ∀ c, i ≠ .configure c) (hf : i ≠ .flushrx) (hp : u.phase ∈ i.phases u.params) :
    u.phase ∉ .flOn :: .cfgBOff :: configureOff := by
  intro hmem
  cases i with
  | configure c => exact hc c rfl
  | flushrx => exact hf rfl
  | _ =>
    simp only [configureOff, List.mem_cons, List.not_mem_nil, or_false] at hmem
    rcases hmem with h | h | h | h | h | h | h <;>
      simp [h, Instr.phases, gatePhases, splitPhase] at hp <;> split at hp <;> simp at hp

theorem outside_of_inv (h : u.Inv) (hi : decode u.x.cmd = .ok i) (hc : ∀ c, i ≠ .configure c) (hf : i ≠ .flushrx) :
    u.phase ∉ .flOn :: .cfgBOff :: configureOff := by
  by_cases hp : u.phase = .idle
  · rw [hp]; decide
  · exact phases_outside hc hf (h.running hi hp).2.1

/-- A command that writes no configuration register and no cache keeps them in step. -/
theorem other_synced (h : u.Inv) (hi : decode u.x.cmd = .ok i) (hc : ∀ c, i ≠ .configure c) (hf : i ≠ .flushrx)
    (hs : u.Synced) (hm : u.Moves i w) : w.Synced := by
  obtain ⟨hparams, _, hcmd⟩ := hm.frame
  obtain ⟨hu, _, _, hk, hd, hb, _⟩ := hm.control_frame hc
  rw [Peripheral.synced_iff (outside_of_inv (hm.inv h hi) (hcmd ▸ hi) hc hf), hparams, hm.cache hc,
    Uart.configuration_congr hu (hb hf) hk hd]
  exact (Peripheral.synced_iff (outside_of_inv h hi hc hf)).1 hs

/-- CONFIGURE's writes put its operand in the registers one after the other; after the last one the cache is the operand. -/
theorem configure_synced (hi : decode u.x.cmd = .ok (.configure c)) (hs : u.Synced) (hm : u.Moves (.configure c) w) :
    w.Synced := by
  have hagree {p : Phase} (hp : u.phase = p) (hmem : p ∈ .cfgBOff :: configureOff := by simp [configureOff])
      (hc : u.params.cached = true) : u.uart.agreesUpTo u.params.csz8 c p := by
    have h := (Peripheral.synced_configure_iff (hp ▸ hmem) hi).1 hs hc
    rwa [hp] at h
  have goal {v : Peripheral} {p : Phase} (hv : decode v.x.cmd = .ok (.configure c))
      (h : v.params.cached = true → v.uart.agreesUpTo v.params.csz8 c p)
      (hmem : p ∈ .cfgBOff :: configureOff := by simp [configureOff]) : (v.goto p).Synced :=
    (Peripheral.synced_configure_iff (u := v.goto p) hmem hv).2 h
  cases hm with
  | configure hp => exact goal hi fun _ => by simp [Uart.agreesUpTo]
  | cfgBOff hw hp => exact goal (v := (u.setUart _).emit _) hi fun _ => by simp [Uart.agreesUpTo]
  | cfgA hw hp =>
    obtain ⟨_, h1, h0⟩ := encA_bits c
    exact goal (v := (u.setUart _).emit _) hi fun _ => ⟨fun _ => ⟨h1, h0⟩, by simp, by simp, by simp⟩
  | cfgC hw hp =>
    refine goal (v := (u.setUart _).emit _) hi fun hc => ?_
    obtain ⟨hu, _⟩ := hagree hp (hc := hc)
    exact ⟨fun _ => hu (by simp), fun _ => rfl, by simp, by simp⟩
  | cfgBaud hw hp hbus =>
    refine goal (v := (u.setUart _).emit _) hi fun hc => ?_
    obtain ⟨hu, hk, _⟩ := hagree hp (hc := hc)
    exact ⟨fun _ => hu (by simp), fun _ => hk (by simp), by simp, fun _ => encBaud_extract_divisor c⟩
  | cfgBaudHigh hw hp hbus =>
    refine goal (v := (u.setUart _).emit _) hi fun hc => ?_
    obtain ⟨hu, hk, _⟩ := hagree hp (hc := hc)
    exact ⟨fun _ => hu (by simp), fun _ => hk (by simp),
      fun _ => BitVec.extractLsb'_append_eq_left.trans (highByte_encBaud c), by simp⟩
  | cfgBaudLow hw hp =>
    refine goal (v := (u.setUart _).emit _) hi fun hc => ?_
    obtain ⟨hu, hk, hd, _⟩ := hagree hp (hc := hc)
    refine ⟨fun _ => hu (by simp), fun _ => hk (by simp), by simp, fun _ => ?_⟩
    show u.uart.baud.extractLsb' 8 4 ++ lowByte (encBaud c) = c.baudDivisor
    rw [hd rfl, lowByte_encBaud, baud_halves]
  | cfgBOn hw hp =>
    refine (Peripheral.synced_iff (by simp [configureOff])).2 fun hc => ?_
    obtain ⟨hu, hk, _, hd⟩ := hagree hp (hc := hc)
    obtain ⟨hu, _⟩ := hu (by simp)
    refine (Uart.configuration_of_configured (c := c) (csz8 := u.params.csz8) ?_ ?_ ?_ ?_).trans ?_
    · exact (Uart.writeCtrlB_u2x _ _).trans hu
    · exact Uart.writeCtrlB_ctrlB _ _
    · exact (Uart.writeCtrlB_ctrlC _ _).trans (hk (by simp))
    · exact (Uart.writeCtrlB_baud _ _).trans (hd rfl)
    · exact congrArg some (if_pos hc).symm
  | gateAhead hg | cacheClosed hg | cacheOpen hg | gateClosed hg | gateOpen hg => cases hg
  | txAgain ht | txReady ht | rxAgain ht | rxReady ht | rxErr ht | rxByte ht => cases ht

/-- FLUSHRX's two writes on an enabled receiver leave Control B as it was (rule R117). -/
theorem flushOn_flushOff {b : Byte} (h : bit b 4 = true) : flushOn (flushOff b) = b := by
  revert b; decide

theorem flushOn_absorbs_flushOff (b : Byte) : flushOn (flushOff b) = flushOn b := by
  revert b; decide

/-- Read-back after a write of Control B. -/
theorem configuration_writeCtrlB (v : Uart) (b : Byte) :
    (v.writeCtrlB b).configuration = { v with ctrlB := b }.configuration :=
  Uart.configuration_congr (Uart.writeCtrlB_u2x v b) (Uart.writeCtrlB_ctrlB v b) (Uart.writeCtrlB_ctrlC v b)
    (Uart.writeCtrlB_baud v b)

theorem flushrx_synced (h : u.Inv) (hs : u.Synced) (hm : u.Moves .flushrx w) : w.Synced := by
  have hcfg {p : Phase} (hp : u.phase = p) (hn : p ∉ .flOn :: .cfgBOff :: configureOff := by simp [configureOff]) :=
    (Peripheral.synced_iff (hp ▸ hn)).1 hs
  have goal {v : Peripheral} (hn : v.phase ∉ .flOn :: .cfgBOff :: configureOff := by simp [configureOff])
      (hv : v.params.cached = true → v.uart.configuration = some v.cache) : v.Synced :=
    (Peripheral.synced_iff hn).2 hv
  cases hm with
  | flushSkipped hp | flushrx hp | flDisabled _ hp | flRead _ hp => exact goal (hv := hcfg hp)
  | flOff hw hp =>
    obtain ⟨htmp, hrxen⟩ := h.flushOff hp
    refine (Peripheral.synced_flOn_iff rfl).2 fun hc => ?_
    refine Eq.trans (Uart.configuration_congr ?_ ?_ ?_ ?_) (hcfg hp (by simp [configureOff]) hc)
    · exact Uart.writeCtrlB_u2x _ _
    · show flushOn (u.uart.writeCtrlB _).ctrlB = u.uart.ctrlB
      rw [Uart.writeCtrlB_ctrlB, htmp, flushOn_flushOff hrxen]
    · exact Uart.writeCtrlB_ctrlC _ _
    · exact Uart.writeCtrlB_baud _ _
  | flOn hw hp =>
    refine goal (hv := fun hc => ?_)
    refine Eq.trans ?_ ((Peripheral.synced_flOn_iff hp).1 hs hc)
    refine (configuration_writeCtrlB _ _).trans (Uart.configuration_congr rfl ?_ rfl rfl)
    show flushOn (lowByte u.x.tmp) = flushOn u.uart.ctrlB
    rw [← h.flushOn hp, flushOn_absorbs_flushOff]
  | gateAhead hg | cacheClosed hg | cacheOpen hg | gateClosed hg | gateOpen hg => cases hg
  | txAgain ht | txReady ht | rxAgain ht | rxReady ht | rxErr ht | rxByte ht => cases ht

theorem Peripheral.Moves.synced (h : u.Inv) (hi : decode u.x.cmd = .ok i) (hs : u.Synced) (hm : u.Moves i w) :
    w.Synced := by
  cases i with
  | configure c => exact configure_synced hi hs hm
  | flushrx => exact flushrx_synced h hs hm
  | _ => exact other_synced h hi nofun nofun hs hm

/-! ### The line side and the command port -/

theorem Peripheral.Synced.lineTurn (hs : u.Synced) : u.lineTurn.Synced := by
  intro hc
  have h := hs hc
  change if u.phase ∈ .cfgBOff :: configureOff then _ else _
  split at h
  next hmem =>
    rw [if_pos hmem]
    intro c hd
    simpa [Uart.agreesUpTo] using h c hd
  next hmem =>
    rw [if_neg hmem]
    change if u.phase = .flOn then _ else _
    split at h
    next hfl =>
      rw [if_pos hfl]
      refine (Uart.configuration_congr ?_ ?_ ?_ ?_).trans h <;> simp
    next hfl =>
      rw [if_neg hfl]
      exact (Uart.configuration_lineActs _ _).trans h

theorem Peripheral.Synced.accept (hs : u.Synced) (hp : u.phase = .idle) (d : HostCommand) (rest : List HostCommand) :
    (u.accept d rest).Synced := by
  have hout : u.phase ∉ .flOn :: .cfgBOff :: configureOff := by rw [hp]; decide
  exact (Peripheral.synced_iff (u := u.accept d rest) hout).2 ((Peripheral.synced_iff hout).1 hs)

end Synced

/-- Settles O59: the turn, the line side and the acceptance change no configuration register and no cache, and every move keeps
them in step. -/
theorem cacheStaysInStepWithTheHardware : Obligations.CacheStaysInStepWithTheHardware := by
  intro s t hs hsync ht
  have h := hs.prepare.self
  have hturn : ∀ v ∈ s.nextTurn.self :: s.nextTurn.others, v.Synced := fun v hv => hsync v (s.nextTurn_perm.subset hv)
  obtain ⟨hself, hothers⟩ := List.forall_mem_cons.1 hturn
  have hprep : s.prepare.self.Synced := hself.lineTurn
  obtain ⟨rfl, _⟩ | ⟨c, rest, i, w, hp, hi, hm, rfl⟩ | ⟨i, w, _, hi, hm, rfl⟩ := step_next ht
  · exact List.forall_mem_cons.2 ⟨hprep, hothers⟩
  · exact List.forall_mem_cons.2 ⟨hm.synced (h.accept hp c rest) hi (hprep.accept hp c rest), hothers⟩
  · exact List.forall_mem_cons.2 ⟨hm.synced h hi hprep, hothers⟩

end Sys2Proof.Machine
end

section
/-! SUPPORT. The register bus (10_state.md section 3, 20_memory.md): each access of the map through the register rules, and
the addresses that hold no register. -/

namespace Sys2Proof.Machine

/-! ### Accesses at the addresses of the map (rules R26 and R48) -/

section Access

variable {u : Peripheral} {v : Byte}

theorem memRead8_ctrlA (hw : u.params.wf = true) :
    memRead8 (u.params.base + 0) u = .next (u.uart.ctrlA, (u.setUart u.uart.sawCtrlA).emit (.r8 .ctrlA u.uart.ctrlA)) :=
  regRead8_ctrlA hw

/-- TXC after a write of Control A: a 1 in bit 6 clears it (rule R28). -/
theorem Uart.writeCtrlA_eq (w : Uart) (v : Byte) :
    w.writeCtrlA v = { w with u2x := bit v 1, mpcm := bit v 0, txc := w.txc && !bit v 6 } := by
  unfold Uart.writeCtrlA
  cases bit v 6 <;> simp

/-- The receive path is discarded when RXEN goes from 1 to 0 (rule R43). -/
theorem Uart.writeCtrlB_eq (w : Uart) (v : Byte) :
    w.writeCtrlB v =
      if bit w.ctrlB 4 = true ∧ bit v 4 = false then
        { w with ctrlB := v, waiting := none, ferr := false, ovr := false, perr := false }
      else { w with ctrlB := v } := by
  simp [Uart.writeCtrlB, Uart.rxen, Uart.discardReceive]

end Access

/-- Settles O14, from the register rules of Control A. -/
theorem controlAUnderAccess : Obligations.ControlAUnderAccess := by
  intro u hw
  obtain ⟨h7, h6, h5, h4, h3, h2, h1, h0⟩ := ctrlA_bits u.uart
  refine ⟨⟨u.uart.ctrlA, memRead8_ctrlA hw, h7, h6, h5, h4, h3, h2, h1, h0⟩, fun v => ?_⟩
  refine (regWrite8_ctrlA hw v).trans ?_
  rw [Uart.writeCtrlA_eq]
  rfl

/-- Settles O15, from the register rules of Control B. -/
theorem controlBUnderAccess : Obligations.ControlBUnderAccess := by
  intro u hw
  refine ⟨regRead8_ctrlB hw, fun v => (regWrite8_ctrlB hw v).trans ?_⟩
  rw [Uart.writeCtrlB_eq]
  rfl

/-- Bits 15:12 of a BAUD read are free; bits 11:0 are the stored ones (rule R34). -/
theorem baudRead_low (n : BitVec 4) (d : BitVec 12) : (n ++ d).extractLsb' 0 12 = d :=
  BitVec.extractLsb'_append_eq_right

/-- Settles O16, from the register rules of Control C and BAUD. -/
theorem controlCAndBaudHoldWhatIsWritten : Obligations.ControlCAndBaudHoldWhatIsWritten := by
  intro u hw
  refine ⟨fun v => ?_, fun v => ?_⟩
  · exact ⟨_, _, regWrite8_ctrlC hw v, rfl, regRead8_ctrlC (u := (u.setUart _).emit _) hw, rfl⟩
  · exact ⟨_, _, _, regWrite16_eq hw v, rfl, regRead16_eq (u := (u.setUart _).emit _) hw, rfl, baudRead_low _ _⟩

/-- Settles O17: the byte reads return the two halves of the twelve stored bits. -/
theorem baudIsLittleEndian : Obligations.BaudIsLittleEndian := by
  intro u v hw
  refine ⟨_, _, _, _, _, regWrite16_eq hw v, regRead8_baudLow (u := (u.setUart _).emit _) hw,
    regRead8_baudHigh (u := ((u.setUart _).emit _).emit _) hw, ?_, ?_⟩
  · show (v.extractLsb' 0 12).extractLsb' 0 8 = _
    rw [BitVec.extractLsb'_extractLsb'_of_le (by decide)]
  · refine BitVec.extractLsb'_append_eq_right.trans ?_
    show (v.extractLsb' 0 12).extractLsb' 8 4 = _
    rw [BitVec.extractLsb'_extractLsb'_of_le (by decide)]

/-- With the error flags 0 the error mask is `NONE` (rule R98). -/
theorem decErr_noFlags (drdy txc bempty u2x mpcm : Bool) :
    decErr (ctrlAByte drdy txc bempty false false false u2x mpcm) = 0 := by
  revert drdy txc bempty u2x mpcm
  decide

/-- The receive path is empty after DATA is read (rule R42). -/
theorem consume_ctrlA (w : Uart) : bit w.consume.ctrlA 7 = false ∧ decErr w.consume.ctrlA = 0 := by
  obtain ⟨h7, _⟩ := ctrlA_bits w.consume
  exact ⟨h7, decErr_noFlags _ _ _ _ _⟩

/-- Settles O18: the register rule of DATA; the line side then delivers as it likes. -/
theorem dataReadConsumesTheByte : Obligations.DataReadConsumesTheByte := by
  intro u d hw hd
  obtain ⟨h7, herr⟩ := consume_ctrlA u.uart
  refine ⟨_, regRead8_data hw hd, rfl, h7, herr, fun hrx b f o p => ?_⟩
  show (u.uart.consume.lineAct _).waiting = _ ∧ _
  have hon : u.uart.consume.rxen = true := hrx
  simp [Uart.lineAct, hon]

/-! ### Addresses that hold no register (rules R36, R53, R54) -/

theorem slotAt_eq_none {base a : Nat} (h : a ∉ [base, base + 1, base + 2, base + 4, base + 5, base + 6]) :
    slotAt base a = none := by
  simp only [List.mem_cons, List.not_mem_nil, or_false, not_or] at h
  obtain ⟨h0, h1, h2, h4, h5, h6⟩ := h
  simp [slotAt, h0, h1, h2, h4, h5, h6]

/-- BAUD's address is the only one at which its low byte stands. -/
theorem slotAt_eq_baudLow {base a : Nat} (h : slotAt base a = some .baudLow) : a = base + 4 := by
  unfold slotAt at h
  split at h
  next => cases h
  next =>
  split at h
  next => cases h
  next =>
  split at h
  next => cases h
  next =>
  split at h
  next ha => exact ha
  next =>
  split at h
  next => cases h
  next =>
  split at h <;> cases h

theorem Peripheral.locate_badBlock {u : Peripheral} (h : u.params.wf = false) (a : Nat) :
    u.locate a = .refused .badRegisterBlock := by
  simp [Peripheral.locate, h]

theorem Peripheral.locate_unmapped {u : Peripheral} (hw : u.params.wf = true) {a : Nat}
    (h : slotAt u.params.base a = none) : u.locate a = .refused (.unmappedAddress a) := by
  simp [Peripheral.locate, hw, h]

/-- A 16-bit access off BAUD is refused, also where a one-byte register stands (rule R54). -/
theorem mem16_unmapped {u : Peripheral} (hw : u.params.wf = true) {a : Nat} (h : a ≠ u.params.base + 4)
    (v : BitVec 16) :
    memRead16 a u = .refused (.unmappedAddress a) ∧ memWrite16 a v u = .refused (.unmappedAddress a) := by
  simp only [memRead16, memWrite16]
  cases hs : slotAt u.params.base a with
  | none => simp [Peripheral.locate_unmapped hw hs]
  | some r =>
    have hl : u.locate a = .next r := by simp [Peripheral.locate, hw, hs]
    cases r with
    | baudLow => exact absurd (slotAt_eq_baudLow hs) h
    | _ => simp [hl]

/-- Settles O19: the block, then the address, decide before any register is reached. -/
theorem noAccessOutsideTheMap : Obligations.NoAccessOutsideTheMap := by
  intro u a v h
  refine ⟨fun hw => ?_, fun hw => ⟨fun ha => ?_, fun ha => mem16_unmapped hw ha h⟩⟩
  · simp [memRead8, memWrite8, memRead16, memWrite16, Peripheral.locate_badBlock hw]
  · simp [memRead8, memWrite8, Peripheral.locate_unmapped hw (slotAt_eq_none ha)]

/-! ### The line side (rules R40 to R44, R60) -/

/-- Settles O20: no action sets DRDY while RXEN is 0. -/
theorem disabledReceiverNeverReady : Obligations.DisabledReceiverNeverReady := by
  intro u as hoff hwait
  have hnone : (u.lineActs as).waiting = none := by
    refine Option.not_isSome_iff_eq_none.1 fun h => ?_
    have hon := Uart.lineActs_drdy as (fun h' => absurd (hwait ▸ h') (by decide)) h
    rw [Uart.lineActs_rxen, Uart.rxen, hoff] at hon
    cases hon
  obtain ⟨h7, _⟩ := ctrlA_bits (u.lineActs as)
  exact ⟨hnone, by rw [h7, hnone]; rfl⟩

/-- Settles O21: a read of Control A leaves DRDY and notes BEMPTY, and no turn of the line side takes either back. -/
theorem readyFlagsPersist : Obligations.ReadyFlagsPersist := by
  intro u u' v as h
  obtain ⟨hw, -⟩ := regRead8_next (r := .ctrlA) h
  rw [memRead8_ctrlA hw] at h
  cases h
  obtain ⟨b7, _, b5, _⟩ := ctrlA_bits u.uart
  obtain ⟨a7, _, a5, _⟩ := ctrlA_bits (u.uart.sawCtrlA.lineActs as)
  refine ⟨fun h7 => ?_, fun htx h5 => ?_⟩
  · exact a7.trans (Uart.lineActs_waiting as (u := u.uart.sawCtrlA) (b7.symm.trans h7))
  · have hempty : u.uart.bempty = true := b5.symm.trans h5
    exact a5.trans (Uart.lineActs_empty (u := u.uart.sawCtrlA) as htx ⟨hempty, hempty⟩).1

/-- Settles O22, from the frame of the line side's actions. -/
theorem lineSideLeavesStoredBits : Obligations.LineSideLeavesStoredBits := by
  intro u as
  obtain ⟨hb, hk, hd, hu, hm⟩ := Uart.lineActs_frame u as
  refine ⟨(u.lineActs as).txc, (u.lineActs as).bempty, (u.lineActs as).ferr, (u.lineActs as).ovr,
    (u.lineActs as).perr, (u.lineActs as).waiting, (u.lineActs as).txPath, (u.lineActs as).emptySeen, ?_⟩
  rw [← hb, ← hk, ← hd, ← hu, ← hm]

/-! ### The reference environment (rule R44) -/

section Reference

variable {w : Uart} {held : List RxByte}

/-- The two actions every turn of the reference environment begins with. -/
theorem Uart.reference_status (w : Uart) : ∃ seen,
    (w.lineAct (.bufferEmpty w.txen)).lineAct .transmitNotComplete =
      { w with txc := false, bempty := w.txen, emptySeen := seen } := by
  cases h : w.txen <;> simp [Uart.lineAct, h]

/-- A turn of the reference environment, by what it finds: with RXEN 1 and no byte waiting it delivers the head of its stream;
where a byte waits it changes no flag; else it takes the error flags away. -/
theorem Uart.reference_turn (hrx : w.waiting.isSome = true → w.rxen = true) : ∃ seen,
    let w' := w.lineActs (referenceActions w held).1
    let status := { w with txc := false, bempty := w.txen, emptySeen := seen }
    (∃ r rest, w.rxen = true ∧ w.waiting = none ∧ held = r :: rest ∧ (referenceActions w held).2 = rest ∧
      w' = { status with waiting := some r.byte, ferr := r.ferr, ovr := r.ovr, perr := r.perr }) ∨
    (w.rxen = true ∧ w.waiting.isSome = true ∧ (referenceActions w held).2 = held ∧ w' = status) ∨
    ((w.rxen = true → held = []) ∧ w.waiting = none ∧ (referenceActions w held).2 = held ∧
      w' = { status with ferr := false, ovr := false, perr := false }) := by
  obtain ⟨seen, hstatus⟩ := w.reference_status
  refine ⟨seen, ?_⟩
  unfold referenceActions
  cases hon : w.rxen with
  | false =>
    have hnone : w.waiting = none := by
      cases h : w.waiting with
      | none => rfl
      | some d => rw [hrx (by simp [h])] at hon; cases hon
    refine .inr (.inr ⟨nofun, hnone, rfl, ?_⟩)
    simp only [Uart.lineActs_cons, hstatus]
    rfl
  | true =>
    cases hwait : w.waiting with
    | some d =>
      refine .inr (.inl ⟨rfl, rfl, rfl, ?_⟩)
      simp only [Uart.lineActs_cons, hstatus, hwait]
      rfl
    | none =>
      cases held with
      | nil =>
        refine .inr (.inr ⟨fun _ => rfl, rfl, rfl, ?_⟩)
        simp only [Uart.lineActs_cons, hstatus, hwait]
        rfl
      | cons r rest =>
        refine .inl ⟨r, rest, rfl, rfl, rfl, rfl, ?_⟩
        simp only [Uart.lineActs_cons, hstatus]
        exact if_pos hon

/-- `rx_stream` is the same before and after a turn (log entry 10). -/
theorem Uart.reference_stream (hrx : w.waiting.isSome = true → w.rxen = true) :
    (w.lineActs (referenceActions w held).1).rxStream (referenceActions w held).2 = w.rxStream held := by
  obtain ⟨seen, ⟨r, rest, _, hnone, rfl, hheld, hw⟩ | ⟨_, hsome, hheld, hw⟩ | ⟨_, hnone, hheld, hw⟩⟩ :=
    Uart.reference_turn (held := held) hrx
  · rw [hw, hheld, Uart.rxStream_none hnone]
    rfl
  · obtain ⟨d, hd⟩ := Option.isSome_iff_exists.1 hsome
    rw [hw, hheld, Uart.rxStream_waiting hd]
    exact Uart.rxStream_waiting hd held
  · rw [hw, hheld]
    simp [Uart.rxStream, hnone]

/-- After a turn a byte waits exactly when RXEN is 1 and the stream has one. -/
theorem Uart.reference_waiting (hrx : w.waiting.isSome = true → w.rxen = true) :
    (w.lineActs (referenceActions w held).1).waiting.isSome = (w.rxen && !(w.rxStream held).isEmpty) := by
  obtain ⟨seen, ⟨r, rest, hon, hnone, rfl, _, hw⟩ | ⟨hon, hsome, _, hw⟩ | ⟨hempty, hnone, _, hw⟩⟩ :=
    Uart.reference_turn (held := held) hrx
  · simp [hw, hon, Uart.rxStream_none hnone]
  · obtain ⟨d, hd⟩ := Option.isSome_iff_exists.1 hsome
    simp [hw, hon, hd, Uart.rxStream_waiting hd]
  · rw [hw, Uart.rxStream_none hnone]
    cases hon : w.rxen with
    | false => simp [hnone]
    | true => simp [hnone, hempty hon]

/-- Where no byte waits after a turn, the error flags are 0. -/
theorem Uart.reference_errors (hrx : w.waiting.isSome = true → w.rxen = true)
    (h : (w.lineActs (referenceActions w held).1).waiting.isSome = false) :
    decErr (w.lineActs (referenceActions w held).1).ctrlA = 0 := by
  obtain ⟨seen, ⟨r, rest, _, _, _, _, hw⟩ | ⟨_, hsome, _, hw⟩ | ⟨_, hnone, _, hw⟩⟩ :=
    Uart.reference_turn (held := held) hrx
  · rw [hw] at h
    cases h
  · rw [hw] at h
    exact absurd (hsome.symm.trans h) (by decide)
  · rw [hw]
    exact decErr_noFlags _ _ _ _ _

/-- TXC and BEMPTY after a turn. -/
theorem Uart.reference_flags (hrx : w.waiting.isSome = true → w.rxen = true) :
    (w.lineActs (referenceActions w held).1).txc = false ∧
      (w.lineActs (referenceActions w held).1).bempty = w.txen := by
  obtain ⟨seen, ⟨r, rest, _, _, _, _, hw⟩ | ⟨_, _, _, hw⟩ | ⟨_, _, _, hw⟩⟩ :=
    Uart.reference_turn (held := held) hrx <;> exact ⟨hw ▸ rfl, hw ▸ rfl⟩

/-- A stream that begins with the waiting byte. -/
theorem Uart.rxStream_cons {r : RxByte} {rest : List RxByte} (h : w.waiting.isSome = true)
    (hs : w.rxStream held = r :: rest) :
    w.waiting = some r.byte ∧ w.ferr = r.ferr ∧ w.ovr = r.ovr ∧ w.perr = r.perr ∧ held = rest := by
  obtain ⟨d, hd⟩ := Option.isSome_iff_exists.1 h
  rw [Uart.rxStream_waiting hd] at hs
  cases hs
  exact ⟨hd, rfl, rfl, rfl, rfl⟩

end Reference

/-- Settles O23, from what a turn of the reference environment leaves: TXC and BEMPTY, the same stream, and a waiting byte
exactly when the receiver is enabled and the stream has one. -/
theorem referenceEnvironmentControlA : Obligations.ReferenceEnvironmentControlA := by
  intro u held hline hrx
  have huart : u.lineTurn.uart = u.uart.lineActs (referenceActions u.uart held).1 := by
    rw [Peripheral.lineTurn_uart, hline]; rfl
  have hheld : u.lineTurn.line = .reference (referenceActions u.uart held).2 := by
    rw [Peripheral.lineTurn_line, hline]; rfl
  obtain ⟨htxc, hbempty⟩ := Uart.reference_flags (held := held) hrx
  have hwait := Uart.reference_waiting (held := held) hrx
  have hstream := Uart.reference_stream (held := held) hrx
  rw [← huart] at htxc hbempty hwait hstream
  obtain ⟨b7, b6, b5, b4, b3, b2, b1, b0⟩ := ctrlA_bits u.lineTurn.uart
  refine ⟨b7.trans hwait, b6.trans htxc, b5.trans hbempty, b1.trans ?_, b0.trans ?_, fun r rest hs hon => ?_,
    fun h7 => ⟨?_, ?_⟩⟩
  · exact Uart.lineActs_u2x _ _
  · exact Uart.lineActs_mpcm _ _
  · have hsome : u.lineTurn.uart.waiting.isSome = true := by
      rw [hwait, hs, Uart.rxen, hon]; rfl
    obtain ⟨hd, hf, ho, hp, hrest⟩ := Uart.rxStream_cons hsome (hstream.trans hs)
    exact ⟨b4.trans hf, b3.trans ho, b2.trans hp, hd, hheld.trans (hrest ▸ rfl)⟩
  · rw [huart]
    exact Uart.reference_errors hrx (huart ▸ b7.symm.trans h7)
  · rw [hheld, ← hstream, Uart.rxStream_none (Option.not_isSome_iff_eq_none.1 (by rw [← b7, h7]; decide))]

/-! ### A step of the machine -/

/-- Settles O24, by the cases of the fetch. -/
theorem stepRunsTheCommand : Obligations.StepRunsTheCommand := by
  intro s p
  refine ⟨fun c rest i hp hport hi => ?_, fun i hp hi => ?_, fun hp hport => ?_, fun c rest e hp hport he => ?_,
    State.prepare_quiet⟩
  · simp only [step, State.fetch, p, if_pos hp, hport, hi]
  · simp only [step, State.fetch, p, if_neg hp, hi]
  · simp only [step, State.fetch, p, if_pos hp, hport]
  · simp only [step, State.fetch, p, if_pos hp, hport, he]

end Sys2Proof.Machine
end

section
/-! SUPPORT. What each step of a command answers at its peripheral, phase by phase: the equations the statements about steps and
about whole commands are put together from. -/

namespace Sys2Proof.Machine

section Equations

variable {u : Peripheral} {i : Instr}

/-- A step of a command at the machine, from its step at the peripheral. -/
theorem exec_of_act {s : State} {w : Peripheral} (h : i.act s.self = .next w) : exec i s = .next { s with self := w } := by
  rw [exec_eq_onSelf, State.onSelf_of_next h]

theorem exec_of_act_refused {s : State} {r : Refusal} (h : i.act s.self = .refused r) : exec i s = .refused r := by
  rw [exec_eq_onSelf, State.onSelf, h]; rfl

theorem exec_of_act_fault {s : State} {f : Fault} (h : i.act s.self = .fault f) : exec i s = .fault f := by
  rw [exec_eq_onSelf, State.onSelf, h]; rfl

/-! ### The shared steps -/

/-- The peripheral after a poll's read of Control A (rule R102). -/
def Peripheral.polled (u : Peripheral) : Peripheral :=
  ((u.setUart u.uart.sawCtrlA).emit (.r8 .ctrlA u.uart.ctrlA)).setTmp (u.uart.ctrlA.setWidth 16)

/-- The peripheral after the gate's read of Control B (rules R100 and R101). -/
def Peripheral.gateRead (u : Peripheral) : Peripheral :=
  (u.emit (.r8 .ctrlB u.uart.ctrlB)).setTmp (u.uart.ctrlB.setWidth 16)

theorem act_cached (hg : i.gated = true) (hi : i.wf = true) (hp : u.phase = .idle) (hc : u.params.cached = true) :
    i.act u = .next (if i.gateOpen u then i.started u else u.complete i.disabledResponse) := by
  rw [act_gated_idle hg hi hp, acceptGated_cached hc, gateOpen_eq, if_pos hc]; rfl

theorem act_gateAhead (hg : i.gated = true) (hi : i.wf = true) (hp : u.phase = .idle) (hc : u.params.cached = false) :
    i.act u = .next (u.goto .gateB) := by
  rw [act_gated_idle hg hi hp, acceptGated_readBack hc]

theorem act_gate (hg : i.gated = true) (hi : i.wf = true) (hp : u.phase = .gateB) (hc : u.params.cached = false)
    (hw : u.params.wf = true) :
    i.act u = .next (if i.gateOpen u then i.started u.gateRead else u.gateRead.complete i.disabledResponse) := by
  rw [act_gateB hg hi hp, gateStep_eq hw, gateOpen_eq, if_neg (Bool.eq_false_iff.1 hc)]; rfl

/-- The gate passes in the accepting step (cached variant). -/
theorem act_cacheOpen (hg : i.gated = true) (hi : i.wf = true) (hp : u.phase = .idle) (hc : u.params.cached = true)
    (hopen : i.direction.inCache u.cache = true) : i.act u = .next (i.started u) := by
  rw [act_cached hg hi hp hc, gateOpen_eq, if_pos hc, if_pos hopen]

/-- The gate passes after the one read of Control B (read-back variant). -/
theorem act_gateOpen (hg : i.gated = true) (hi : i.wf = true) (hp : u.phase = .gateB) (hc : u.params.cached = false)
    (hw : u.params.wf = true) (hopen : i.direction.inCtrlB u.uart.ctrlB = true) :
    i.act u = .next (i.started u.gateRead) := by
  rw [act_gate hg hi hp hc hw, gateOpen_eq, if_neg (Bool.eq_false_iff.1 hc), if_pos hopen]

/-- The gate fails after the one read of Control B (read-back variant). -/
theorem act_gateClosed (hg : i.gated = true) (hi : i.wf = true) (hp : u.phase = .gateB) (hc : u.params.cached = false)
    (hw : u.params.wf = true) (hclosed : i.gateOpen u = false) :
    i.act u = .next (u.gateRead.complete i.disabledResponse) := by
  rw [act_gate hg hi hp hc hw, if_neg (Bool.eq_false_iff.1 hclosed)]

theorem act_txPoll (ht : i.transmits = true) (hp : u.phase = .txPoll) : i.act u = txPollStep u := by
  cases i with
  | putc byte => simp only [Instr.act, putcStep, hp]
  | putn length => simp only [Instr.act, putnStep, hp]
  | puts => simp only [Instr.act, putsStep, hp]
  | _ => cases ht

theorem act_rxPoll (hr : i.receives = true) (hi : i.wf = true) (hp : u.phase = .rxPoll) : i.act u = rxPollStep u := by
  cases i with
  | getc => simp only [Instr.act, getcStep, hp]
  | getn length => simp only [Instr.act, getnStep, hp]
  | gets capacity delimiter =>
    have hc : capacity ≠ 0 := by simpa [Instr.wf] using hi
    simp only [Instr.act, getsStep, hp, if_neg hc]
  | _ => cases hr

theorem act_rxErr (hr : i.receives = true) (hi : i.wf = true) (hp : u.phase = .rxErr) : i.act u = rxErrStep u := by
  cases i with
  | getc => simp only [Instr.act, getcStep, hp]
  | getn length => simp only [Instr.act, getnStep, hp]
  | gets capacity delimiter =>
    have hc : capacity ≠ 0 := by simpa [Instr.wf] using hi
    simp only [Instr.act, getsStep, hp, if_neg hc]
  | _ => cases hr

theorem act_rxData (hr : i.receives = true) (hn : i ≠ .getc) (hi : i.wf = true) (hp : u.phase = .rxData) :
    i.act u = (rxDataStep u).andThen fun w => .next (w.goto .rxnBuf) := by
  cases i with
  | getc => exact absurd rfl hn
  | getn length => simp only [Instr.act, getnStep, hp]
  | gets capacity delimiter =>
    have hc : capacity ≠ 0 := by simpa [Instr.wf] using hi
    simp only [Instr.act, getsStep, hp, if_neg hc]
  | _ => cases hr

/-- A poll's iteration of a transmitting command (rule R103). -/
theorem act_txPoll_eq (ht : i.transmits = true) (hp : u.phase = .txPoll) (hw : u.params.wf = true) :
    i.act u = .next (u.polled.goto (if u.uart.bempty then .txData else .txPoll)) := by
  rw [act_txPoll ht hp, txPollStep, pollStep_eq hw, bufferIsEmpty_ctrlA]
  cases u.uart.bempty with
  | true => rfl
  | false => exact congrArg Host.Outcome.next (Peripheral.goto_self (u := u.polled) hp).symm

/-- A poll's iteration of a receiving command (rule R104). -/
theorem act_rxPoll_eq (hr : i.receives = true) (hi : i.wf = true) (hp : u.phase = .rxPoll) (hw : u.params.wf = true) :
    i.act u = .next (u.polled.goto (if u.uart.waiting.isSome then .rxErr else .rxPoll)) := by
  rw [act_rxPoll hr hi hp, rxPollStep, pollStep_eq hw, dataReady_ctrlA]
  cases u.uart.waiting.isSome with
  | true => rfl
  | false => exact congrArg Host.Outcome.next (Peripheral.goto_self (u := u.polled) hp).symm

theorem txPoll_ready (ht : i.transmits = true) (hp : u.phase = .txPoll) (hw : u.params.wf = true)
    (hb : u.uart.bempty = true) : i.act u = .next (u.polled.goto .txData) := by
  rw [act_txPoll_eq ht hp hw, if_pos hb]

theorem rxPoll_ready (hr : i.receives = true) (hi : i.wf = true) (hp : u.phase = .rxPoll) (hw : u.params.wf = true)
    (hd : u.uart.waiting.isSome = true) : i.act u = .next (u.polled.goto .rxErr) := by
  rw [act_rxPoll_eq hr hi hp hw, if_pos hd]

/-- The peripheral after the error flags were captured (rule R104). -/
def Peripheral.captured (u : Peripheral) : Peripheral :=
  ((u.setUart u.uart.sawCtrlA).emit (.r8 .ctrlA u.uart.ctrlA)).setX
    { u.x with tmp := u.uart.ctrlA.setWidth 16, ebyte := decErr u.uart.ctrlA }

/-- The peripheral after the byte `d` was read from DATA (rule R104). -/
def Peripheral.received (u : Peripheral) (d : Byte) : Peripheral :=
  ((u.setUart u.uart.consume).emit (.r8 .data d)).setX { u.x with tmp := d.setWidth 16, dbyte := d }

/-- The capture of the error flags (rule R104). -/
theorem act_rxErr_eq (hr : i.receives = true) (hi : i.wf = true) (hp : u.phase = .rxErr) (hw : u.params.wf = true) :
    i.act u = .next (u.captured.goto .rxData) := by
  rw [act_rxErr hr hi hp, rxErrStep_eq hw]; rfl

/-- The read of DATA in the two receive loops (rule R104). -/
theorem act_rxData_eq (hr : i.receives = true) (hn : i ≠ .getc) (hi : i.wf = true) (hp : u.phase = .rxData)
    (hw : u.params.wf = true) {d : Byte} (hd : u.uart.waiting = some d) :
    i.act u = .next ((u.received d).goto .rxnBuf) := by
  rw [act_rxData hr hn hi hp, rxDataStep_eq hw hd]; rfl

/-! ### CONFIGURE (rules R92 to R94) -/

section Configure

variable {c : Configuration}

theorem configure_idle (hp : u.phase = .idle) : (Instr.configure c).act u = .next (u.goto .cfgBOff) := by
  simp only [Instr.act, configureStep, hp]

theorem configure_bOff (hp : u.phase = .cfgBOff) (hw : u.params.wf = true) :
    (Instr.configure c).act u = .next (((u.setUart (u.uart.writeCtrlB bOff)).emit (.w8 .ctrlB bOff)).goto .cfgA) := by
  simp only [Instr.act, configureStep, hp, regWrite8_ctrlB hw, Reply.next_andThen]

theorem configure_a (hp : u.phase = .cfgA) (hw : u.params.wf = true) :
    (Instr.configure c).act u =
      .next (((u.setUart (u.uart.writeCtrlA (encA c))).emit (.w8 .ctrlA (encA c))).goto .cfgC) := by
  simp only [Instr.act, configureStep, hp, regWrite8_ctrlA hw, Reply.next_andThen]

theorem configure_c (hp : u.phase = .cfgC) (hw : u.params.wf = true) :
    (Instr.configure c).act u = .next (((u.setUart (u.uart.writeCtrlC (encC u.params.csz8 c))).emit
      (.w8 .ctrlC (encC u.params.csz8 c))).goto .cfgBaud) := by
  simp only [Instr.act, configureStep, hp, regWrite8_ctrlC hw, Reply.next_andThen]

theorem configure_baud (hp : u.phase = .cfgBaud) (hbus : u.params.bus = .whole) (hw : u.params.wf = true) :
    (Instr.configure c).act u =
      .next (((u.setUart { u.uart with baud := c.baudDivisor }).emit (.w16 (encBaud c))).goto .cfgBOn) := by
  simp only [Instr.act, configureStep, hp, hbus, regWrite16_eq hw, Reply.next_andThen, Uart.writeBaud,
    encBaud_extract_divisor]

/-- On a split bus the high byte of BAUD is written first (rules R55 and R154). -/
theorem configure_baudHigh (hp : u.phase = .cfgBaud) (hbus : u.params.bus = .split) (hw : u.params.wf = true) :
    (Instr.configure c).act u = .next (((u.setUart
      { u.uart with baud := c.baudDivisor.extractLsb' 8 4 ++ u.uart.baud.extractLsb' 0 8 }).emit
        (.w8 .baudHigh (highByte (encBaud c)))).goto .cfgBaudLow) := by
  simp only [Instr.act, configureStep, hp, hbus, regWrite8_baudHigh hw, Reply.next_andThen, Uart.writeBaudHigh,
    highByte_encBaud]

theorem configure_baudLow (hp : u.phase = .cfgBaudLow) (hw : u.params.wf = true) :
    (Instr.configure c).act u = .next (((u.setUart
      { u.uart with baud := u.uart.baud.extractLsb' 8 4 ++ c.baudDivisor.extractLsb' 0 8 }).emit
        (.w8 .baudLow (lowByte (encBaud c)))).goto .cfgBOn) := by
  simp only [Instr.act, configureStep, hp, regWrite8_baudLow hw, Reply.next_andThen, Uart.writeBaudLow, lowByte_encBaud]

theorem configure_bOn (hp : u.phase = .cfgBOn) (hw : u.params.wf = true) :
    (Instr.configure c).act u = .next ((((u.setUart (u.uart.writeCtrlB (encB c))).emit (.w8 .ctrlB (encB c))).setCache
      (if u.params.cached then c else u.cache)).complete (Response.ofStatus ErrorMask.none)) := by
  simp only [Instr.act, configureStep, hp, regWrite8_ctrlB hw, Reply.next_andThen, Peripheral.ite_setCache]
  rfl

end Configure

/-! ### GETCONFIG and GETERROR (rules R96 and R97) -/

theorem getconfig_cached (hp : u.phase = .idle) (hc : u.params.cached = true) :
    Instr.getconfig.act u = .next (u.complete (Response.ofConfig ErrorMask.none u.cache.pack)) := by
  simp only [Instr.act, getconfigStep, hp, if_pos hc]

theorem getconfig_idle (hp : u.phase = .idle) (hc : u.params.cached = false) :
    Instr.getconfig.act u = .next (u.goto .rbA) := by
  simp only [Instr.act, getconfigStep, hp, if_neg (Bool.eq_false_iff.1 hc)]

theorem getconfig_a (hp : u.phase = .rbA) (hw : u.params.wf = true) :
    Instr.getconfig.act u = .next ((((u.setUart u.uart.sawCtrlA).emit (.r8 .ctrlA u.uart.ctrlA)).setX
      { u.x with tmp := u.uart.ctrlA.setWidth 16, cfg := cfgFromA u.uart.ctrlA }).goto .rbB) := by
  simp only [Instr.act, getconfigStep, hp, regRead8_ctrlA hw, Reply.next_andThen]; rfl

theorem getconfig_b (hp : u.phase = .rbB) (hw : u.params.wf = true) :
    Instr.getconfig.act u = .next (((u.emit (.r8 .ctrlB u.uart.ctrlB)).setX
      { u.x with tmp := u.uart.ctrlB.setWidth 16, cfg := cfgFromB u.x.cfg u.uart.ctrlB }).goto .rbC) := by
  simp only [Instr.act, getconfigStep, hp, regRead8_ctrlB hw, Reply.next_andThen]; rfl

theorem getconfig_c (hp : u.phase = .rbC) (hw : u.params.wf = true) :
    Instr.getconfig.act u = .next (((u.emit (.r8 .ctrlC u.uart.ctrlC)).setX
      { u.x with tmp := u.uart.ctrlC.setWidth 16, cfg := cfgFromC u.x.cfg u.uart.ctrlC }).goto .rbBaud) := by
  simp only [Instr.act, getconfigStep, hp, regRead8_ctrlC hw, Reply.next_andThen]; rfl

theorem getconfig_baud (hp : u.phase = .rbBaud) (hbus : u.params.bus = .whole) (hw : u.params.wf = true) :
    Instr.getconfig.act u = readBackEnd (Config.baudUnspecified u.freeCount ++ u.uart.baud)
      (u.useFree.emit (.r16 (Config.baudUnspecified u.freeCount ++ u.uart.baud))) := by
  simp only [Instr.act, getconfigStep, hp, hbus, regRead16_eq hw, Reply.next_andThen]

/-- On a split bus the low byte of BAUD is read first (rule R55). -/
theorem getconfig_baudLow (hp : u.phase = .rbBaud) (hbus : u.params.bus = .split) (hw : u.params.wf = true) :
    Instr.getconfig.act u = .next (((u.emit (.r8 .baudLow (u.uart.baud.extractLsb' 0 8))).setTmp
      ((u.uart.baud.extractLsb' 0 8).setWidth 16)).goto .rbBaudHigh) := by
  simp only [Instr.act, getconfigStep, hp, hbus, regRead8_baudLow hw, Reply.next_andThen]

theorem getconfig_baudHigh (hp : u.phase = .rbBaudHigh) (hw : u.params.wf = true) :
    Instr.getconfig.act u =
      readBackEnd ((Config.baudUnspecified u.freeCount ++ u.uart.baud.extractLsb' 8 4) ++ lowByte u.x.tmp)
        (u.useFree.emit (.r8 .baudHigh (Config.baudUnspecified u.freeCount ++ u.uart.baud.extractLsb' 8 4))) := by
  simp only [Instr.act, getconfigStep, hp, regRead8_baudHigh hw, Reply.next_andThen]; rfl

theorem geterror_idle (hp : u.phase = .idle) : Instr.geterror.act u = .next (u.goto .geA) := by
  simp only [Instr.act, geterrorStep, hp]

theorem geterror_a (hp : u.phase = .geA) (hw : u.params.wf = true) :
    Instr.geterror.act u = .next (u.polled.complete (Response.ofStatus (decErr u.uart.ctrlA))) := by
  simp only [Instr.act, geterrorStep, hp, regRead8_ctrlA hw, Reply.next_andThen]; rfl

/-! ### The transmit body (rules R103, R105, R110 and R113) -/

/-- The peripheral after the byte in `x[dbyte]` was handed to DATA. -/
def Peripheral.sent (u : Peripheral) : Peripheral := (u.setUart (u.uart.handOver u.x.dbyte)).emit (.w8 .data u.x.dbyte)

/-- The transmit body aggregates `NONE`, so it leaves the working registers as they are (rule R103). -/
theorem txDataStep_sent (hw : u.params.wf = true) (hb : u.uart.bempty = true) : txDataStep u = .next u.sent := by
  rw [txDataStep_eq hw hb, aggregate_none]; rfl

theorem putc_data {byte : Byte} (hp : u.phase = .txData) (hw : u.params.wf = true) (hb : u.uart.bempty = true) :
    (Instr.putc byte).act u = .next (u.sent.complete (Response.ofStatus u.x.err)) := by
  simp only [Instr.act, putcStep, hp, txDataStep_sent hw hb, Reply.next_andThen]; rfl

theorem putn_data {length : Len} (hp : u.phase = .txData) (hw : u.params.wf = true) (hb : u.uart.bempty = true) :
    (Instr.putn length).act u = .next (if u.x.cnt + 1 < u.x.lim
      then (u.sent.setX { u.x with cnt := u.x.cnt + 1 }).goto .txnBuf
      else (u.sent.setX { u.x with cnt := u.x.cnt + 1 }).complete (Response.ofStatus u.x.err)) := by
  simp only [Instr.act, putnStep, hp, txDataStep_sent hw hb, Reply.next_andThen]; rfl

theorem puts_data (hp : u.phase = .txData) (hw : u.params.wf = true) (hb : u.uart.bempty = true)
    (hcnt : u.x.cnt ≠ 0xFFFF) :
    Instr.puts.act u = .next ((u.sent.setX { u.x with cnt := u.x.cnt + 1 }).goto .txnBuf) := by
  simp only [Instr.act, putsStep, hp, txDataStep_sent hw hb, Reply.next_andThen]
  exact if_neg hcnt

theorem puts_overrun (hp : u.phase = .txData) (hw : u.params.wf = true) (hb : u.uart.bempty = true)
    (hcnt : u.x.cnt = 0xFFFF) : Instr.puts.act u = .refused .unterminatedString := by
  simp only [Instr.act, putsStep, hp, txDataStep_sent hw hb, Reply.next_andThen]
  exact if_pos hcnt

/-- The peripheral after the next byte to send was read from the buffer. -/
def Peripheral.fetched (u : Peripheral) (v : Byte) : Peripheral := (u.emit (.br u.x.cnt v)).setX { u.x with dbyte := v }

theorem putn_buf {length : Len} {v : Byte} (hp : u.phase = .txnBuf) (hv : Memory.read u.buffer u.x.cnt.toNat = some v) :
    (Instr.putn length).act u = .next ((u.fetched v).goto .txPoll) := by
  simp only [Instr.act, putnStep, hp, txnBufStep_eq hv, Reply.next_andThen]; rfl

theorem puts_buf {v : Byte} (hp : u.phase = .txnBuf) (hv : Memory.read u.buffer u.x.cnt.toNat = some v) :
    Instr.puts.act u = .next (if v = 0x00 then (u.fetched v).complete (Response.ofStatus u.x.err)
      else (u.fetched v).goto .txPoll) := by
  simp only [Instr.act, putsStep, hp, txnBufStep_eq hv, Reply.next_andThen]; rfl

/-! ### The receive body (rules R104, R106, R111 and R112) -/

theorem getc_data {d : Byte} (hp : u.phase = .rxData) (hw : u.params.wf = true) (hd : u.uart.waiting = some d) :
    Instr.getc.act u = .next (((u.received d).setX
      { (u.received d).x with err := aggregate u.x.err u.x.ebyte }).complete
        (Response.ofByte (aggregate u.x.err u.x.ebyte) d)) := by
  simp only [Instr.act, getcStep, hp, rxDataStep_eq hw hd, Reply.next_andThen]; rfl

/-- The peripheral after the received byte was stored and counted and its error aggregated. -/
def Peripheral.stored (u : Peripheral) : Peripheral :=
  ((u.setBuffer (Memory.write u.buffer u.x.cnt.toNat u.x.dbyte)).emit (.bw u.x.cnt u.x.dbyte)).setX
    { u.x with cnt := u.x.cnt + 1, err := aggregate u.x.err u.x.ebyte }

theorem getn_buf {length : Len} (hp : u.phase = .rxnBuf) (hm : (Memory.read u.buffer u.x.cnt.toNat).isSome = true) :
    (Instr.getn length).act u = .next (if u.x.ebyte = 0 ∧ u.x.cnt + 1 < u.x.lim then u.stored.goto .rxPoll
      else u.stored.complete (Response.ofCount (aggregate u.x.err u.x.ebyte) (u.x.cnt + 1))) := by
  have hact : (Instr.getn length).act u = .next (if u.x.ebyte ≠ ErrorMask.none
      then u.stored.complete (Response.ofCount (aggregate u.x.err u.x.ebyte) (u.x.cnt + 1)) else getnLoop u.stored) := by
    simp only [Instr.act, getnStep, hp, rxnBufStep_eq hm, Reply.next_andThen]; rfl
  have hloop : getnLoop u.stored = if u.x.cnt + 1 < u.x.lim then u.stored.goto .rxPoll
      else u.stored.complete (Response.ofCount (aggregate u.x.err u.x.ebyte) (u.x.cnt + 1)) := rfl
  rw [hact, hloop, ite_not, ite_and]
  rfl

/-- GETS goes on after a byte without an error that is not the delimiter, while there is room (rule R112). -/
theorem gets_buf {capacity : Len} {delimiter : Byte} (hi : capacity ≠ 0) (hp : u.phase = .rxnBuf)
    (hm : (Memory.read u.buffer u.x.cnt.toNat).isSome = true) :
    (Instr.gets capacity delimiter).act u = .next (u.stored.goto
      (if u.x.ebyte = 0 ∧ u.x.dbyte ≠ delimiter ∧ u.x.cnt + 1 < u.x.lim then .rxPoll else .rxsTerm)) := by
  have hact : (Instr.gets capacity delimiter).act u = .next (if u.x.ebyte ≠ ErrorMask.none ∨ u.x.dbyte = delimiter
      then u.stored.goto .rxsTerm else getsLoop u.stored) := by
    simp only [Instr.act, getsStep, hp, if_neg hi, rxnBufStep_eq hm, Reply.next_andThen]; rfl
  have hloop : getsLoop u.stored = u.stored.goto (if u.x.cnt + 1 < u.x.lim then .rxPoll else .rxsTerm) :=
    (apply_ite u.stored.goto _ _ _).symm
  rw [hact, hloop]
  by_cases hstop : u.x.ebyte ≠ ErrorMask.none ∨ u.x.dbyte = delimiter
  · rw [if_pos hstop, if_neg fun ⟨he, hd, _⟩ => hstop.elim (absurd he) hd]
  · obtain ⟨he, hd⟩ := not_or.1 hstop
    rw [if_neg hstop]
    simp only [not_not.1 he, hd, ErrorMask.none, ne_eq, not_false_eq_true, true_and]

theorem gets_term {capacity : Len} {delimiter : Byte} (hi : capacity ≠ 0) (hp : u.phase = .rxsTerm)
    (hm : (Memory.read u.buffer u.x.cnt.toNat).isSome = true) :
    (Instr.gets capacity delimiter).act u = .next (((u.setBuffer (Memory.write u.buffer u.x.cnt.toNat 0x00)).emit
      (.bw u.x.cnt 0x00)).complete (Response.ofCount u.x.err u.x.cnt)) := by
  simp only [Instr.act, getsStep, hp, if_neg hi, bufWrite_eq hm, Reply.next_andThen]; rfl

/-! ### FLUSHRX (rule R117) -/

theorem flushrx_skipped (hp : u.phase = .idle) (hc : u.params.cached = true) (hr : u.cache.receiveEnabled = false) :
    Instr.flushrx.act u = .next (u.complete (Response.ofStatus ErrorMask.none)) := by
  simp only [Instr.act, flushrxStep, hp, hc, hr, Bool.not_false, Bool.and_true, if_true]

theorem flushrx_idle (hp : u.phase = .idle) (hr : u.params.cached = true → u.cache.receiveEnabled = true) :
    Instr.flushrx.act u = .next (u.goto .flRead) := by
  have hgo : (u.params.cached && !u.cache.receiveEnabled) = false := by
    cases hc : u.params.cached with
    | true => rw [hr hc]; rfl
    | false => rfl
  simp only [Instr.act, flushrxStep, hp, hgo]
  rfl

theorem flushrx_read (hp : u.phase = .flRead) (hw : u.params.wf = true) :
    Instr.flushrx.act u = .next (if u.params.cached = false ∧ bit u.uart.ctrlB 4 = false
      then u.gateRead.complete (Response.ofStatus ErrorMask.none) else u.gateRead.goto .flOff) := by
  simp only [Instr.act, flushrxStep, hp, regRead8_ctrlB hw, Reply.next_andThen, Bool.and_eq_true, Bool.not_eq_true']
  rfl

theorem flushrx_off (hp : u.phase = .flOff) (hw : u.params.wf = true) :
    Instr.flushrx.act u = .next (((u.setUart (u.uart.writeCtrlB (flushOff (lowByte u.x.tmp)))).emit
      (.w8 .ctrlB (flushOff (lowByte u.x.tmp)))).goto .flOn) := by
  simp only [Instr.act, flushrxStep, hp, regWrite8_ctrlB hw, Reply.next_andThen]

theorem flushrx_on (hp : u.phase = .flOn) (hw : u.params.wf = true) :
    Instr.flushrx.act u = .next (((u.setUart (u.uart.writeCtrlB (flushOn (lowByte u.x.tmp)))).emit
      (.w8 .ctrlB (flushOn (lowByte u.x.tmp)))).complete (Response.ofStatus ErrorMask.none)) := by
  simp only [Instr.act, flushrxStep, hp, regWrite8_ctrlB hw, Reply.next_andThen]

end Equations

end Sys2Proof.Machine
end

section
/-! SUPPORT. The statements about single steps and about whole commands outside the reference environment, from the equations of
each phase. -/

namespace Sys2Proof.Machine

/-! ### CONFIGURE, GETCONFIG and GETERROR, step by step -/

/-- Settles O32, by the equation of each phase. -/
theorem configureSteps : Obligations.ConfigureSteps := by
  intro c s u
  refine ⟨fun hp => exec_of_act (configure_idle hp), fun hw => ⟨fun hp => exec_of_act (configure_bOff hp hw),
    fun hp => exec_of_act (configure_a hp hw), fun hp => exec_of_act (configure_c hp hw), fun hp => ?_,
    fun hp => exec_of_act (configure_baudLow hp hw), fun hp => exec_of_act (configure_bOn hp hw)⟩⟩
  cases hbus : u.params.bus with
  | whole => exact exec_of_act (configure_baud hp hbus hw)
  | split => exact exec_of_act (configure_baudHigh hp hbus hw)

/-- A command that ends in the step that accepts it. -/
theorem complete_of_idle {u : Peripheral} (hp : u.phase = .idle) (r : Response) :
    u.complete r = { u with responses := u.responses ++ [r] } := by
  rw [Peripheral.complete, ← hp]

/-- Settles O34. -/
theorem getconfigFromTheCache : Obligations.GetconfigFromTheCache := by
  intro s hp hc
  rw [exec_of_act (getconfig_cached hp hc), complete_of_idle hp]
  rfl

/-- Settles O36, by the equations of the two phases. -/
theorem geterrorReadsTheFlags : Obligations.GeterrorReadsTheFlags := by
  intro s u
  exact ⟨fun hp => exec_of_act (geterror_idle hp), fun hp hw => exec_of_act (geterror_a hp hw)⟩

/-! ### Gates and polls -/

/-- `n` steps of a command at its peripheral. -/
def actTimes : Nat → Instr → Peripheral → Reply Peripheral
  | 0, _, u => .next u
  | n + 1, i, u => (i.act u).andThen fun w => actTimes n i w

section Runs

variable {i : Instr} {n : Nat} {u w : Peripheral}

/-- Steps of a command at the machine are its steps at the selected peripheral. -/
theorem execTimes_eq_onSelf (n : Nat) (i : Instr) (s : State) : execTimes n i s = s.onSelf (actTimes n i) := by
  induction n generalizing s with
  | zero => rfl
  | succ n ih =>
    rw [execTimes, exec_eq_onSelf, State.onSelf, State.onSelf, actTimes]
    cases i.act s.self with
    | next w => exact ih { s with self := w }
    | _ => rfl

theorem execTimes_of_actTimes {s : State} (h : actTimes n i s.self = .next w) :
    execTimes n i s = .next { s with self := w } := by
  rw [execTimes_eq_onSelf, State.onSelf_of_next h]

theorem execTimes_of_actTimes_fault {s : State} {f : Fault} (h : actTimes n i s.self = .fault f) :
    execTimes n i s = .fault f := by
  rw [execTimes_eq_onSelf, State.onSelf, h]; rfl

/-- The first step of several. -/
theorem actTimes_of_act (h : i.act u = .next w) : actTimes (n + 1) i u = actTimes n i w := by
  rw [actTimes, h]; rfl

/-- The last step of several. -/
theorem actTimes_one (i : Instr) (u : Peripheral) : actTimes 1 i u = i.act u := by
  rw [actTimes]
  cases i.act u <;> rfl

end Runs

/-- Settles O37: the gate fails in the accepting step, or after the one read of Control B. -/
theorem closedGateTouchesNothing : Obligations.ClosedGateTouchesNothing := by
  intro i s hg hi hp hclosed u
  refine ⟨disabledResponse_status i, ?_, ?_, fun hc => ?_, fun hc hw => ?_⟩
  · cases i <;> rfl
  · cases i with
    | getn length => exact fun n hn => (Option.some.inj hn).symm
    | gets capacity delimiter => exact fun n hn => (Option.some.inj hn).symm
    | _ => exact nofun
  · rw [exec_of_act (act_cached hg hi hp hc), hclosed, if_neg (by decide), complete_of_idle hp]
  · have hrun := (actTimes_of_act (n := 1) (act_gateAhead hg hi hp hc)).trans <|
      (actTimes_one _ _).trans (act_gateClosed hg hi rfl hc hw hclosed)
    rw [execTimes_of_actTimes hrun]
    show Host.Outcome.next { s with self := { u with phase := .idle, x := _, trace := _, responses := _ } } = _
    rw [← hp]
    rfl

/-- Settles O38: the gate passes in the accepting step, or after the one read of Control B. -/
theorem openGateStarts : Obligations.OpenGateStarts := by
  intro i s hg hi hopen u
  refine ⟨fun hp hc => ?_, fun hp hc => exec_of_act (act_gateAhead hg hi hp hc), fun hp hc hw => ?_⟩
  · rw [exec_of_act (act_cached hg hi hp hc), hopen]; rfl
  · rw [exec_of_act (act_gate hg hi hp hc hw), hopen]; rfl

/-- A peripheral in a poll: what the reads of Control A so far have left in `x[tmp]`, in the model's own `emptySeen` and in the
trace (rule R102). -/
def Peripheral.polling (u : Peripheral) (tmp : BitVec 16) (seen : Bool) (t : List Access) : Peripheral :=
  { u with x := { u.x with tmp := tmp }, uart := { u.uart with emptySeen := seen }, trace := t }

section Polls

variable {i : Instr} {u : Peripheral} {s : State}

/-- An iteration of a poll whose flag is 0 leaves a peripheral in the same poll. -/
theorem txPoll_starved (ht : i.transmits = true) (hp : u.phase = .txPoll) (hw : u.params.wf = true)
    (hb : u.uart.bempty = false) (tmp : BitVec 16) (seen : Bool) (t : List Access) :
    i.act (u.polling tmp seen t) =
      .next (u.polling (u.uart.ctrlA.setWidth 16) u.uart.bempty (t ++ [.r8 .ctrlA u.uart.ctrlA])) := by
  refine (act_txPoll_eq (u := u.polling tmp seen t) ht hp hw).trans ?_
  show Host.Outcome.next (Peripheral.goto _ (if u.uart.bempty then _ else _)) = _
  rw [hb, if_neg (by decide), ← hb, ← hp]
  rfl

theorem rxPoll_starved (hr : i.receives = true) (hi : i.wf = true) (hp : u.phase = .rxPoll) (hw : u.params.wf = true)
    (hd : u.uart.waiting.isSome = false) (tmp : BitVec 16) (seen : Bool) (t : List Access) :
    i.act (u.polling tmp seen t) =
      .next (u.polling (u.uart.ctrlA.setWidth 16) u.uart.bempty (t ++ [.r8 .ctrlA u.uart.ctrlA])) := by
  refine (act_rxPoll_eq (u := u.polling tmp seen t) hr hi hp hw).trans ?_
  show Host.Outcome.next (Peripheral.goto _ (if u.uart.waiting.isSome then _ else _)) = _
  rw [hd, if_neg (by decide), ← hp]
  rfl

/-- Any number of iterations of a poll whose flag is 0, for one command's steps (`execTimes`) and for steps of the machine
(`run`) alike. -/
theorem polling_iterated {F : Nat → State → Reply State} {f : State → Reply State} (h0 : ∀ s, F 0 s = .next s)
    (hsucc : ∀ n s, F (n + 1) s = (f s).andThen (F n))
    (hread : ∀ tmp seen t, f { s with self := s.self.polling tmp seen t } = .next { s with self :=
      (s.self.polling (s.self.uart.ctrlA.setWidth 16) s.self.uart.bempty (t ++ [.r8 .ctrlA s.self.uart.ctrlA])) })
    (n : Nat) : ∃ tmp seen, F n s = .next { s with self :=
      (s.self.polling tmp seen (s.self.trace ++ List.replicate n (.r8 .ctrlA s.self.uart.ctrlA))) } := by
  suffices h : ∀ n tmp seen t, ∃ tmp' seen', F n { s with self := s.self.polling tmp seen t } = .next { s with self :=
      (s.self.polling tmp' seen' (t ++ List.replicate n (.r8 .ctrlA s.self.uart.ctrlA))) } from
    h n s.self.x.tmp s.self.uart.emptySeen s.self.trace
  intro n
  induction n with
  | zero => exact fun tmp seen t => ⟨tmp, seen, by rw [h0, List.replicate_zero, List.append_nil]⟩
  | succ n ih =>
    intro tmp seen t
    obtain ⟨tmp', seen', h⟩ := ih (s.self.uart.ctrlA.setWidth 16) s.self.uart.bempty (t ++ [.r8 .ctrlA s.self.uart.ctrlA])
    refine ⟨tmp', seen', ?_⟩
    rw [hsucc, hread, Reply.next_andThen, h, List.replicate_succ, List.append_assoc]
    rfl

/-- `n` steps of a command whose iterations stay in the poll. -/
theorem execTimes_polling (h : ∀ tmp seen t, i.act (s.self.polling tmp seen t) = .next
      (s.self.polling (s.self.uart.ctrlA.setWidth 16) s.self.uart.bempty (t ++ [.r8 .ctrlA s.self.uart.ctrlA])))
    (n : Nat) : ∃ x seen, execTimes n i s = .next { s with self :=
      { s.self with x := x, uart := { s.self.uart with emptySeen := seen },
                    trace := s.self.trace ++ List.replicate n (.r8 .ctrlA s.self.uart.ctrlA) } } := by
  obtain ⟨tmp, seen, h⟩ := polling_iterated (F := fun n => execTimes n i) (fun _ => rfl) (fun _ _ => rfl)
    (fun tmp seen t => exec_of_act (h tmp seen t)) n
  exact ⟨_, seen, h⟩

end Polls

/-- Settles O39, from the equation of a poll's iteration. -/
theorem pollReadsControlAUntilReady : Obligations.PollReadsControlAUntilReady := by
  intro i s hi hw u read
  obtain ⟨h7, _, h5, _⟩ := ctrlA_bits u.uart
  refine ⟨fun ht hp => ⟨?_, fun hflag n => ?_⟩, fun hr hp => ⟨?_, fun hflag n => ?_⟩⟩
  · rw [exec_of_act (act_txPoll_eq ht hp hw), h5]; rfl
  · exact execTimes_polling (txPoll_starved ht hp hw (h5.symm.trans hflag)) n
  · rw [exec_of_act (act_rxPoll_eq hr hi hp hw), h7]; rfl
  · exact execTimes_polling (rxPoll_starved hr hi hp hw (h7.symm.trans hflag)) n

/-- With no turn listed and a line side that does nothing, a step of a command in progress is that command's step. -/
theorem step_quiet {i : Instr} {s : State} (ht : s.turns = []) (hl : s.self.line = .script []) (hp : s.self.phase ≠ .idle)
    (hi : decode s.self.x.cmd = .ok i) : step s = exec i s := by
  obtain ⟨_, hrun, _, _, hquiet⟩ := stepRunsTheCommand s
  rw [hquiet ht hl] at hrun
  exact hrun i hp hi

/-- Settles O40: the iterations of O39, as steps of a machine whose line side is quiet. -/
theorem starvedPollNeverEnds : Obligations.StarvedPollNeverEnds := by
  intro n i s hturns hline hw hi hwf hstarved
  have hread : ∀ tmp seen t, i.act (s.self.polling tmp seen t) = .next (s.self.polling (s.self.uart.ctrlA.setWidth 16)
      s.self.uart.bempty (t ++ [.r8 .ctrlA s.self.uart.ctrlA])) ∧ s.self.phase ≠ .idle := by
    intro tmp seen t
    obtain ⟨ht, hp, hb⟩ | ⟨hr, hp, hd⟩ := hstarved
    · exact ⟨txPoll_starved ht hp hw hb tmp seen t, by simp [hp]⟩
    · exact ⟨rxPoll_starved hr hwf hp hw (by simp [hd]) tmp seen t, by simp [hp]⟩
  obtain ⟨tmp, seen, h⟩ := polling_iterated (F := run) (f := step) (fun _ => rfl) (fun _ _ => rfl)
    (fun tmp seen t =>
      have ⟨hact, hp⟩ := hread tmp seen t
      (step_quiet (s := { s with self := s.self.polling tmp seen t }) hturns hline hp hi).trans (exec_of_act hact)) n
  exact ⟨_, h, rfl, rfl, ⟨seen, rfl⟩, rfl⟩

end Sys2Proof.Machine
end

section
/-! SUPPORT. The statements about single steps and short whole runs of the byte, buffer and flush commands, from the equations of
each phase. -/

namespace Sys2Proof.Machine

/-! ### PUTC and GETC -/

/-- PUTC in the cached variant with the buffer empty: the poll, then DATA (rule R105). -/
theorem putc_run {u : Peripheral} (byte : Byte) (hp : u.phase = .idle) (hw : u.params.wf = true)
    (hc : u.params.cached = true) (ht : u.cache.transmitEnabled = true) (hb : u.uart.bempty = true) :
    actTimes 3 (.putc byte) u = .next (((((Instr.putc byte).started u).polled.goto .txData).sent).complete
      (Response.ofStatus ErrorMask.none)) := by
  let begun := (Instr.putc byte).started u
  calc actTimes 3 (.putc byte) u
    _ = actTimes 2 (.putc byte) begun := actTimes_of_act (act_cacheOpen rfl rfl hp hc ht)
    _ = actTimes 1 (.putc byte) (begun.polled.goto .txData) :=
      actTimes_of_act (txPoll_ready (u := begun) rfl rfl hw hb)
    _ = _ := (actTimes_one _ _).trans (putc_data (u := begun.polled.goto .txData) rfl hw hb)

/-- Settles O41: the transmit body, and the three steps put together. -/
theorem putcTransmits : Obligations.PutcTransmits := by
  intro byte s hw hb u
  refine ⟨fun hp => exec_of_act (putc_data hp hw hb), fun hp hc ht => ?_⟩
  rw [execTimes_of_actTimes (putc_run byte hp hw hc ht hb)]
  show Host.Outcome.next { s with self :=
    { u with phase := .idle, x := _, uart := { u.uart with txPath := _, bempty := _, emptySeen := u.uart.bempty },
             trace := (u.trace ++ [_]) ++ [_], responses := _ } } = _
  rw [hb, List.append_assoc, ← hp]
  rfl

/-- GETC in the cached variant with a byte waiting: the poll, the capture of the error flags, then DATA (rules R106 and R147). -/
theorem getc_run {u : Peripheral} {d : Byte} (hp : u.phase = .idle) (hw : u.params.wf = true)
    (hc : u.params.cached = true) (hr : u.cache.receiveEnabled = true) (hd : u.uart.waiting = some d) :
    let flags := (Instr.getc.started u |>.polled.goto .rxErr).captured.goto .rxData
    actTimes 4 .getc u = .next (((flags.received d).setX
      { (flags.received d).x with err := decErr u.uart.ctrlA }).complete (Response.ofByte (decErr u.uart.ctrlA) d)) := by
  let begun := Instr.getc.started u
  let ready := begun.polled.goto .rxErr
  have hsome : u.uart.waiting.isSome = true := by rw [hd]; rfl
  have herr : aggregate ErrorMask.none (decErr u.uart.ctrlA) = decErr u.uart.ctrlA := none_aggregate _
  calc actTimes 4 .getc u
    _ = actTimes 3 .getc begun := actTimes_of_act (act_cacheOpen rfl rfl hp hc hr)
    _ = actTimes 2 .getc ready := actTimes_of_act (rxPoll_ready (u := begun) rfl rfl rfl hw hsome)
    _ = actTimes 1 .getc (ready.captured.goto .rxData) := actTimes_of_act (act_rxErr_eq (u := ready) rfl rfl rfl hw)
    _ = _ := (actTimes_one _ _).trans (getc_data (u := ready.captured.goto .rxData) rfl hw hd)
    _ = _ := congrArg (fun e : Byte => Host.Outcome.next (((((ready.captured.goto .rxData).received d).setX
        { ((ready.captured.goto .rxData).received d).x with err := e }).complete (Response.ofByte e d)))) herr

/-- Settles O42: the two steps, and the four steps put together. -/
theorem getcReceives : Obligations.GetcReceives := by
  intro s d hw hd u after
  refine ⟨fun hp => exec_of_act (act_rxErr_eq rfl rfl hp hw), fun hp => exec_of_act (getc_data hp hw hd),
    fun hp hc hr => ?_⟩
  rw [execTimes_of_actTimes (getc_run hp hw hc hr hd)]
  simp only [Instr.started, Peripheral.polled, Peripheral.captured, Peripheral.received, Peripheral.setTmp,
    Peripheral.setX, Peripheral.setUart, Peripheral.emit, Peripheral.goto, Peripheral.complete, List.append_assoc]
  rw [← hp]
  rfl

/-! ### The loops -/

/-- Settles O43, by the equations of the two phases. -/
theorem putnSteps : Obligations.PutnSteps := by
  intro length s u
  exact ⟨fun v hp hv => exec_of_act (putn_buf hp hv), fun hp hw hb => exec_of_act (putn_data hp hw hb)⟩

/-- Settles O44, by the equations of the three phases. -/
theorem getnSteps : Obligations.GetnSteps := by
  intro length s hw u
  exact ⟨fun hp => exec_of_act (act_rxErr_eq rfl rfl hp hw),
    fun d hp hd => exec_of_act (act_rxData_eq rfl Instr.noConfusion rfl hp hw hd),
    fun hp hm => exec_of_act (getn_buf hp hm)⟩

/-- Settles O45, by the equations of the four phases. -/
theorem getsSteps : Obligations.GetsSteps := by
  intro capacity delimiter s hc hw u
  have hi : (Instr.gets capacity delimiter).wf = true := by simpa [Instr.wf] using hc
  exact ⟨fun hp => exec_of_act (act_rxErr_eq rfl hi hp hw),
    fun d hp hd => exec_of_act (act_rxData_eq rfl Instr.noConfusion hi hp hw hd),
    fun hp hm => exec_of_act (gets_buf hc hp hm), fun hp hm => exec_of_act (gets_term hc hp hm)⟩

/-- Settles O46, by the equations of the two phases. -/
theorem putsSteps : Obligations.PutsSteps := by
  intro s u
  exact ⟨fun v hp hv => exec_of_act (puts_buf hp hv), fun hp hw hb hcnt => exec_of_act (puts_data hp hw hb hcnt)⟩

/-! ### FLUSHRX -/

/-- Settles O48, by the equations of the four phases. -/
theorem flushrxSteps : Obligations.FlushrxSteps := by
  intro s u
  refine ⟨fun hp => ?_, fun hw => ⟨fun hp => exec_of_act (flushrx_read hp hw), fun hp => exec_of_act (flushrx_off hp hw),
    fun hp => exec_of_act (flushrx_on hp hw)⟩⟩
  by_cases hskip : u.params.cached = true ∧ u.cache.receiveEnabled = false
  · obtain ⟨hc, hr⟩ := hskip
    rw [if_pos ⟨hc, hr⟩, exec_of_act (flushrx_skipped hp hc hr), complete_of_idle hp]
    rfl
  · rw [if_neg hskip]
    exact exec_of_act (flushrx_idle hp fun hc => Bool.not_eq_false _ ▸ not_and.1 hskip hc)

/-- Control B, off and on again (rule R117): only the waiting byte and its flags are gone (rule R118). -/
theorem Uart.toggled {v : Uart} (hon : bit v.ctrlB 4 = true) :
    (v.writeCtrlB (flushOff v.ctrlB)).writeCtrlB (flushOn v.ctrlB) =
      { v with waiting := none, ferr := false, ovr := false, perr := false } := by
  have hoff : bit (flushOff v.ctrlB) 4 = false := by
    generalize v.ctrlB = b; revert b; decide
  have hsame : flushOn v.ctrlB = v.ctrlB := by
    revert hon; generalize v.ctrlB = b; revert b; decide
  rw [Uart.writeCtrlB_eq v, if_pos ⟨hon, hoff⟩, Uart.writeCtrlB_eq, if_neg fun ⟨h, _⟩ => absurd (h.symm.trans hoff) (by decide),
    hsame]

/-- Settles O47: the accept, the read and the two writes. -/
theorem flushrxTogglesReceiveEnable : Obligations.FlushrxTogglesReceiveEnable := by
  intro s hp hw hon hcache u
  let read := (u.goto .flRead).gateRead.goto .flOff
  have hlow : lowByte read.x.tmp = u.uart.ctrlB := lowByte_setWidth _
  let off := ((read.setUart (read.uart.writeCtrlB (flushOff u.uart.ctrlB))).emit (.w8 .ctrlB (flushOff u.uart.ctrlB))).goto .flOn
  have hrun : actTimes 4 .flushrx u = .next (((off.setUart (off.uart.writeCtrlB (flushOn u.uart.ctrlB))).emit
      (.w8 .ctrlB (flushOn u.uart.ctrlB))).complete (Response.ofStatus ErrorMask.none)) :=
    calc actTimes 4 .flushrx u
      _ = actTimes 3 .flushrx (u.goto .flRead) := actTimes_of_act (flushrx_idle hp hcache)
      _ = actTimes 2 .flushrx read := actTimes_of_act
        ((flushrx_read (u := u.goto .flRead) rfl hw).trans (by rw [if_neg fun h => absurd (hon.symm.trans h.2) (by decide)]))
      _ = actTimes 1 .flushrx off := actTimes_of_act ((flushrx_off (u := read) rfl hw).trans (by rw [hlow]))
      _ = _ := (actTimes_one _ _).trans ((flushrx_on (u := off) rfl hw).trans (by rw [show lowByte off.x.tmp = _ from hlow]))
  rw [execTimes_of_actTimes hrun]
  have huart : off.uart.writeCtrlB (flushOn u.uart.ctrlB) = _ := Uart.toggled hon
  rw [huart]
  show Host.Outcome.next { s with self :=
    { u with phase := .idle, x := _, uart := _, trace := (u.trace ++ [_] ++ [_]) ++ [_], responses := _ } } = _
  rw [List.append_assoc, List.append_assoc, ← hp]
  rfl

/-! ### Where the spec gives no behaviour -/

section BadBlock

variable {u : Peripheral} {i : Instr}

theorem regRead8_badBlock (h : u.params.wf = false) (r : Slot) : regRead8 r u = .refused .badRegisterBlock := by
  rw [regRead8_eq, if_neg (Bool.eq_false_iff.1 h)]

theorem regWrite8_badBlock (h : u.params.wf = false) (r : Slot) (v : Byte) :
    regWrite8 r v u = .refused .badRegisterBlock := by
  rw [regWrite8_eq, if_neg (Bool.eq_false_iff.1 h)]

theorem reg16_badBlock (h : u.params.wf = false) (v : BitVec 16) :
    regRead16 u = .refused .badRegisterBlock ∧ regWrite16 v u = .refused .badRegisterBlock := by
  simp [regRead16, memRead16, regWrite16, memWrite16, Peripheral.locate_badBlock h]

/-- The phases of a gated command in which it accesses a register. -/
theorem gated_access_phase (hg : i.gated = true) (hp : u.phase ∈ i.phases u.params)
    (hb : u.phase ∉ [.txnBuf, .rxnBuf, .rxsTerm]) :
    u.phase = .gateB ∨ i.transmits = true ∧ (u.phase = .txPoll ∨ u.phase = .txData) ∨
      i.receives = true ∧ (u.phase = .rxPoll ∨ u.phase = .rxErr ∨ u.phase = .rxData) := by
  cases i with
  | configure | getconfig | geterror | flushrx => cases hg
  | _ => grind [Instr.phases, gatePhases, Instr.transmits, Instr.receives]

theorem gated_badBlock (h : u.params.wf = false) (hg : i.gated = true) (hi : i.wf = true)
    (hmem : u.phase ∈ i.phases u.params) (hb : u.phase ∉ [.txnBuf, .rxnBuf, .rxsTerm]) :
    i.act u = .refused .badRegisterBlock := by
  obtain hp | ⟨ht, hp | hp⟩ | ⟨hr, hp | hp | hp⟩ := gated_access_phase hg hmem hb
  · rw [act_gateB hg hi hp, gateStep, regRead8_badBlock h]; rfl
  · rw [act_txPoll ht hp, txPollStep, pollStep, regRead8_badBlock h]; rfl
  · have hdata : txDataStep u = .refused .badRegisterBlock := by rw [txDataStep, regWrite8_badBlock h]; rfl
    cases i with
    | putc byte => simp only [Instr.act, putcStep, hp, hdata, Reply.refused_andThen]
    | putn length => simp only [Instr.act, putnStep, hp, hdata, Reply.refused_andThen]
    | puts => simp only [Instr.act, putsStep, hp, hdata, Reply.refused_andThen]
    | _ => cases ht
  · rw [act_rxPoll hr hi hp, rxPollStep, pollStep, regRead8_badBlock h]; rfl
  · rw [act_rxErr hr hi hp, rxErrStep, regRead8_badBlock h]; rfl
  · have hdata : rxDataStep u = .refused .badRegisterBlock := by rw [rxDataStep, regRead8_badBlock h]; rfl
    by_cases hgetc : i = .getc
    · subst hgetc
      simp only [Instr.act, getcStep, hp, hdata, Reply.refused_andThen]
    · rw [act_rxData hr hgetc hi hp, hdata]; rfl

/-- Every register access of every command is refused for a bad block (rule R53). -/
theorem act_badBlock (h : u.params.wf = false) (hi : i.wf = true) (hp : u.phase ∈ i.phases u.params)
    (hb : u.phase ∉ [.txnBuf, .rxnBuf, .rxsTerm]) : i.act u = .refused .badRegisterBlock := by
  have hread := regRead8_badBlock h
  have hwrite := regWrite8_badBlock h
  cases i with
  | configure c =>
    rw [Instr.act, configureStep]
    split
    next hidle => grind [Instr.phases, splitPhase]
    next => rw [hwrite]; rfl
    next => rw [hwrite]; rfl
    next => rw [hwrite]; rfl
    next =>
      split
      next => rw [(reg16_badBlock h _).2]; rfl
      next => rw [hwrite]; rfl
    next => rw [hwrite]; rfl
    next => rw [hwrite]; rfl
    next => grind [Instr.phases, splitPhase]
  | getconfig =>
    rw [Instr.act, getconfigStep]
    split
    next hidle => grind [Instr.phases, splitPhase]
    next => rw [hread]; rfl
    next => rw [hread]; rfl
    next => rw [hread]; rfl
    next =>
      split
      next => rw [(reg16_badBlock h 0).1]; rfl
      next => rw [hread]; rfl
    next => rw [hread]; rfl
    next => grind [Instr.phases, splitPhase]
  | geterror =>
    have hp : u.phase = .geA := by simpa [Instr.phases] using hp
    simp only [Instr.act, geterrorStep, hp, hread, Reply.refused_andThen]
  | flushrx =>
    have hp : u.phase = .flRead ∨ u.phase = .flOff ∨ u.phase = .flOn := by simpa [Instr.phases] using hp
    obtain hp | hp | hp := hp <;> simp only [Instr.act, flushrxStep, hp, hread, hwrite, Reply.refused_andThen]
  | _ => exact gated_badBlock h rfl hi hp hb

end BadBlock

section BadIndex

variable {u : Peripheral}

/-- A transmit loop stops at an index the buffer does not have, each command under its own name (rules R113 and R116). -/
theorem tx_badIndex (n : Len) (hp : u.phase = .txnBuf) (hm : Memory.read u.buffer u.x.cnt.toNat = none) :
    (Instr.putn n).act u = .refused (.outsideBuffer u.x.cnt) ∧ Instr.puts.act u = .refused .unterminatedString := by
  simp only [Instr.act, putnStep, putsStep, hp, txnBufStep, bufRead, hm, Reply.refused_andThen, and_self]

/-- A receive loop stops at an index the buffer does not have (rule R116). -/
theorem rx_badIndex (n : Len) (d : Byte) (hp : u.phase = .rxnBuf) (hm : Memory.read u.buffer u.x.cnt.toNat = none) :
    (Instr.getn n).act u = .refused (.outsideBuffer u.x.cnt) ∧
      (n ≠ 0 → (Instr.gets n d).act u = .refused (.outsideBuffer u.x.cnt)) := by
  have hbuf : rxnBufStep u = .refused (.outsideBuffer u.x.cnt) := by
    simp only [rxnBufStep, bufWrite, hm, Reply.refused_andThen]
  refine ⟨?_, fun hn => ?_⟩
  · simp only [Instr.act, getnStep, hp, hbuf, Reply.refused_andThen]
  · simp only [Instr.act, getsStep, if_neg hn, hp, hbuf, Reply.refused_andThen]

/-- The terminator needs its index too (rule R116). -/
theorem term_badIndex {n : Len} (d : Byte) (hn : n ≠ 0) (hp : u.phase = .rxsTerm)
    (hm : Memory.read u.buffer u.x.cnt.toNat = none) :
    (Instr.gets n d).act u = .refused (.outsideBuffer u.x.cnt) := by
  simp only [Instr.act, getsStep, if_neg hn, hp, bufWrite, hm, Reply.refused_andThen]

/-- The last access of the read-back with the parity pattern 1 (rule R90). -/
theorem getconfig_parity (hlast : u.phase = .rbBaud ∧ u.params.bus = .whole ∨ u.phase = .rbBaudHigh)
    (hw : u.params.wf = true) (hk : u.x.cfg.extractLsb' 16 2 = 1) :
    Instr.getconfig.act u = .fault .parityNotValid := by
  have hnone (d : BitVec 16) : Configuration.unpack (cfgFromBaud u.x.cfg d) = none :=
    (unpack_cfgFromBaud_eq_none_iff _ _).2 hk
  obtain ⟨hp, hbus⟩ | hp := hlast
  · rw [getconfig_baud hp hbus hw]; exact readBackEnd_invalid (hnone _)
  · rw [getconfig_baudHigh hp hw]; exact readBackEnd_invalid (hnone _)

end BadIndex

/-- Settles O49, one clause after the other. -/
theorem stopsAreNamed : Obligations.StopsAreNamed := by
  refine ⟨fun i s h hi hp hb => exec_of_act_refused (act_badBlock h hi hp hb), fun s c rest e hp hport he => ?_,
    fun d s => exec_of_act_refused (by simp only [Instr.act, getsStep, if_true]), fun n s hp hm => ?_,
    fun n s hp hm => ?_, fun n d s hn hp hm => exec_of_act_refused (term_badIndex d hn hp hm),
    fun s hp hw hb hcnt => exec_of_act_refused (puts_overrun hp hw hb hcnt),
    fun s hlast hw hk => exec_of_act_fault (getconfig_parity hlast hw hk)⟩
  · obtain ⟨_, _, _, hreserved, _⟩ := stepRunsTheCommand s
    exact hreserved c rest e hp hport he
  · obtain ⟨hputn, hputs⟩ := tx_badIndex n hp hm
    exact ⟨exec_of_act_refused hputn, exec_of_act_refused hputs⟩
  · exact ⟨exec_of_act_refused (rx_badIndex n 0 hp hm).1, fun d hn => exec_of_act_refused ((rx_badIndex n d hp hm).2 hn)⟩

end Sys2Proof.Machine
end

section
/-! SUPPORT. CONFIGURE and GETCONFIG as whole commands on both buses (rules R93, R96 and R146), and one after the other (rule R91). -/

namespace Sys2Proof.Machine

/-! ### CONFIGURE -/

section Configure

variable {u : Peripheral} {c : Configuration}

/-- The registers after CONFIGURE's five writes, whatever they held before (rules R92 to R94). -/
def Uart.configured (v : Uart) (csz8 : BitVec 2) (c : Configuration) : Uart :=
  { v with
      txc := false, u2x := c.useDoubleSpeed, mpcm := false, ctrlB := encB c, ctrlC := encC csz8 c, baud := c.baudDivisor,
      waiting := if v.rxen then none else v.waiting, ferr := !v.rxen && v.ferr, ovr := !v.rxen && v.ovr,
      perr := !v.rxen && v.perr }

/-- The disabling write discards the receive path of an enabled receiver (rule R43). -/
theorem Uart.writeCtrlB_bOff (v : Uart) : v.writeCtrlB bOff =
    { v with ctrlB := bOff, waiting := if v.rxen then none else v.waiting, ferr := !v.rxen && v.ferr,
             ovr := !v.rxen && v.ovr, perr := !v.rxen && v.perr } := by
  have hoff : bit bOff 4 = false := by decide
  rw [Uart.writeCtrlB_eq, hoff]
  cases hon : v.rxen with
  | true => exact if_pos ⟨hon, rfl⟩
  | false => exact if_neg fun ⟨h, _⟩ => absurd (hon.symm.trans h) (by decide)

/-- CONFIGURE's write of Control A clears TXC (rules R28 and R86). -/
theorem Uart.writeCtrlA_encA (v : Uart) (c : Configuration) :
    v.writeCtrlA (encA c) = { v with u2x := c.useDoubleSpeed, mpcm := false, txc := false } := by
  obtain ⟨h6, h1, h0⟩ := encA_bits c
  rw [Uart.writeCtrlA_eq, h6, h1, h0, Bool.not_true, Bool.and_false]

/-- The enabling write stores its byte and discards nothing: both enables were 0 (rule R95). -/
theorem Uart.writeCtrlB_of_off {v : Uart} (h : v.ctrlB = bOff) (b : Byte) : v.writeCtrlB b = { v with ctrlB := b } := by
  rw [Uart.writeCtrlB_eq, h]
  exact if_neg fun ⟨h, _⟩ => absurd h (by decide)

/-- The peripheral after one register write of CONFIGURE. -/
def Peripheral.wrote (u : Peripheral) (v : Uart) (a : Access) (p : Phase) : Peripheral := ((u.setUart v).emit a).goto p

/-- After the disabling write; after the write of Control A; after the write of Control C. -/
def Peripheral.afterOff (u : Peripheral) : Peripheral :=
  (u.goto .cfgBOff).wrote (u.uart.writeCtrlB bOff) (.w8 .ctrlB bOff) .cfgA

def Peripheral.afterA (u : Peripheral) (c : Configuration) : Peripheral :=
  u.afterOff.wrote (u.afterOff.uart.writeCtrlA (encA c)) (.w8 .ctrlA (encA c)) .cfgC

def Peripheral.afterC (u : Peripheral) (c : Configuration) : Peripheral :=
  (u.afterA c).wrote ((u.afterA c).uart.writeCtrlC (encC u.params.csz8 c)) (.w8 .ctrlC (encC u.params.csz8 c)) .cfgBaud

theorem configure_to_baud (n : Nat) (hp : u.phase = .idle) (hw : u.params.wf = true) :
    actTimes (n + 4) (.configure c) u = actTimes n (.configure c) (u.afterC c) :=
  (actTimes_of_act (configure_idle hp)).trans <| (actTimes_of_act (configure_bOff (u := u.goto .cfgBOff) rfl hw)).trans <|
    (actTimes_of_act (configure_a (u := u.afterOff) rfl hw)).trans <|
    actTimes_of_act (configure_c (u := u.afterA c) rfl hw)

/-- The accesses CONFIGURE makes to BAUD (rules R55 and R154). -/
def baudWrites (bus : Config.BaudBus) (c : Configuration) : List Access :=
  match bus with
  | .whole => [.w16 (encBaud c)]
  | .split => [.w8 .baudHigh (highByte (encBaud c)), .w8 .baudLow (lowByte (encBaud c))]

/-- The peripheral before the enabling write: the divisor is in BAUD, by one access or by two. -/
def Peripheral.beforeOn (u : Peripheral) (c : Configuration) : Peripheral :=
  { u.afterC c with
      phase := .cfgBOn
      uart := { (u.afterC c).uart with baud := c.baudDivisor }
      trace := (u.afterC c).trace ++ baudWrites u.params.bus c }

theorem configure_to_on (hp : u.phase = .idle) (hw : u.params.wf = true) :
    actTimes (if u.params.bus = .split then 7 else 6) (.configure c) u = (Instr.configure c).act (u.beforeOn c) := by
  cases hbus : u.params.bus with
  | whole =>
    refine (configure_to_baud 2 hp hw).trans <|
      (actTimes_of_act (configure_baud (u := u.afterC c) rfl hbus hw)).trans <| (actTimes_one _ _).trans ?_
    rw [Peripheral.beforeOn, hbus]; rfl
  | split =>
    let high := (u.afterC c).wrote
      { (u.afterC c).uart with baud := c.baudDivisor.extractLsb' 8 4 ++ (u.afterC c).uart.baud.extractLsb' 0 8 }
      (.w8 .baudHigh (highByte (encBaud c))) .cfgBaudLow
    have hlow : (Instr.configure c).act high = .next (u.beforeOn c) := by
      rw [configure_baudLow (u := high) rfl hw, Peripheral.beforeOn, hbus]
      have hhalves : high.uart.baud.extractLsb' 8 4 ++ c.baudDivisor.extractLsb' 0 8 = c.baudDivisor := by
        rw [show high.uart.baud.extractLsb' 8 4 = c.baudDivisor.extractLsb' 8 4 from BitVec.extractLsb'_append_eq_left,
          baud_halves]
      rw [hhalves]
      rw [show baudWrites .split c = [_] ++ [_] from rfl, ← List.append_assoc]
      rfl
    exact (configure_to_baud 3 hp hw).trans <|
      (actTimes_of_act (configure_baudHigh (u := u.afterC c) rfl hbus hw)).trans <|
      (actTimes_of_act hlow).trans (actTimes_one _ _)

/-- The whole state after CONFIGURE (rules R92 to R94 and R146). -/
def Peripheral.configured (u : Peripheral) (c : Configuration) : Peripheral :=
  { u with
      trace := u.trace ++ [.w8 .ctrlB bOff, .w8 .ctrlA (encA c), .w8 .ctrlC (encC u.params.csz8 c)] ++
        baudWrites u.params.bus c ++ [.w8 .ctrlB (encB c)]
      uart := u.uart.configured u.params.csz8 c
      cache := if u.params.cached then c else u.cache
      responses := u.responses ++ [Response.ofStatus ErrorMask.none] }

theorem Peripheral.beforeOn_trace (u : Peripheral) (c : Configuration) : (u.beforeOn c).trace =
    u.trace ++ [.w8 .ctrlB bOff, .w8 .ctrlA (encA c), .w8 .ctrlC (encC u.params.csz8 c)] ++ baudWrites u.params.bus c := by
  show u.trace ++ [_] ++ [_] ++ [_] ++ _ = _
  simp only [List.append_assoc, List.cons_append, List.nil_append]

/-- The registers hold the operand after the enabling write, whatever they held before. -/
theorem Peripheral.beforeOn_uart (u : Peripheral) (c : Configuration) :
    (u.beforeOn c).uart.writeCtrlB (encB c) = u.uart.configured u.params.csz8 c := by
  have huart : (u.beforeOn c).uart = { ((u.uart.writeCtrlB bOff).writeCtrlA (encA c)).writeCtrlC (encC u.params.csz8 c) with
    baud := c.baudDivisor } := rfl
  rw [huart, Uart.writeCtrlA_encA, Uart.writeCtrlB_bOff, Uart.writeCtrlB_of_off rfl]
  rfl

theorem configure_run (hp : u.phase = .idle) (hw : u.params.wf = true) :
    actTimes (if u.params.bus = .split then 7 else 6) (.configure c) u = .next (u.configured c) := by
  rw [configure_to_on hp hw, configure_bOn (u := u.beforeOn c) rfl hw, Peripheral.beforeOn_uart, Peripheral.configured,
    ← Peripheral.beforeOn_trace, hp]
  rfl

end Configure

/-- Settles O33, from the run of CONFIGURE. -/
theorem configureWritesInFixedOrder : Obligations.ConfigureWritesInFixedOrder := by
  intro c s hp hw u
  rw [execTimes_of_actTimes (configure_run hp hw), Peripheral.configured]
  cases s.self.params.bus <;> rfl

/-! ### GETCONFIG -/

section Getconfig

variable {u : Peripheral}

/-- After the read of Control A; after the read of Control B; after the read of Control C. -/
def Peripheral.readA (u : Peripheral) : Peripheral :=
  (((u.setUart u.uart.sawCtrlA).emit (.r8 .ctrlA u.uart.ctrlA)).setX
    { u.x with tmp := u.uart.ctrlA.setWidth 16, cfg := cfgFromA u.uart.ctrlA }).goto .rbB

def Peripheral.readB (u : Peripheral) : Peripheral :=
  ((u.readA.emit (.r8 .ctrlB u.uart.ctrlB)).setX
    { u.x with tmp := u.uart.ctrlB.setWidth 16, cfg := cfgFromB u.readA.x.cfg u.uart.ctrlB }).goto .rbC

def Peripheral.readC (u : Peripheral) : Peripheral :=
  ((u.readB.emit (.r8 .ctrlC u.uart.ctrlC)).setX
    { u.x with tmp := u.uart.ctrlC.setWidth 16, cfg := cfgFromC u.readB.x.cfg u.uart.ctrlC }).goto .rbBaud

theorem getconfig_to_baud (n : Nat) (hp : u.phase = .idle) (hc : u.params.cached = false) (hw : u.params.wf = true) :
    actTimes (n + 4) .getconfig u = actTimes n .getconfig u.readC :=
  (actTimes_of_act (getconfig_idle hp hc)).trans <| (actTimes_of_act (getconfig_a (u := u.goto .rbA) rfl hw)).trans <|
    (actTimes_of_act (getconfig_b (u := u.readA) rfl hw)).trans <| actTimes_of_act (getconfig_c (u := u.readB) rfl hw)

/-- The accesses that read BAUD as `d` (rule R55). -/
def baudReads (bus : Config.BaudBus) (d : BitVec 16) : List Access :=
  match bus with
  | .whole => [.r16 d]
  | .split => [.r8 .baudLow (d.extractLsb' 0 8), .r8 .baudHigh (d.extractLsb' 8 8)]

/-- The four reads, with what they leave beside the working registers and the count of free values. -/
def Peripheral.readBack (u : Peripheral) (d : BitVec 16) (x : Regs) (n : Nat) (p : Phase) : Peripheral :=
  { u with
      phase := p
      x := x
      freeCount := n
      uart := u.uart.sawCtrlA
      trace := u.trace ++ [.r8 .ctrlA u.uart.ctrlA, .r8 .ctrlB u.uart.ctrlB, .r8 .ctrlC u.uart.ctrlC] ++
        baudReads u.params.bus d }

theorem Peripheral.readC_trace (u : Peripheral) : u.readC.trace =
    u.trace ++ [.r8 .ctrlA u.uart.ctrlA, .r8 .ctrlB u.uart.ctrlB, .r8 .ctrlC u.uart.ctrlC] := by
  show u.trace ++ [_] ++ [_] ++ [_] = _
  simp only [List.append_assoc, List.cons_append, List.nil_append]

/-- On a split bus, after the read of BAUD's low byte. -/
def Peripheral.readLow (u : Peripheral) : Peripheral :=
  ((u.readC.emit (.r8 .baudLow (u.readC.uart.baud.extractLsb' 0 8))).setTmp
    ((u.readC.uart.baud.extractLsb' 0 8).setWidth 16)).goto .rbBaudHigh

theorem Peripheral.readLow_frame (u : Peripheral) :
    u.readLow.params = u.params ∧ u.readLow.uart = u.uart.sawCtrlA ∧ u.readLow.freeCount = u.freeCount := by
  rw [Peripheral.readLow, Peripheral.goto_params, Peripheral.goto_uart, Peripheral.goto_freeCount, Peripheral.setTmp_params,
    Peripheral.setTmp_uart, Peripheral.setTmp_freeCount, Peripheral.emit_params, Peripheral.emit_uart,
    Peripheral.emit_freeCount]
  exact ⟨rfl, rfl, rfl⟩

theorem Peripheral.readLow_tmp (u : Peripheral) : lowByte u.readLow.x.tmp = u.uart.baud.extractLsb' 0 8 :=
  lowByte_setWidth _

theorem Peripheral.readLow_trace (u : Peripheral) (a : Access) : u.readLow.trace ++ [a] =
    u.trace ++ [.r8 .ctrlA u.uart.ctrlA, .r8 .ctrlB u.uart.ctrlB, .r8 .ctrlC u.uart.ctrlC] ++
      [.r8 .baudLow (u.uart.baud.extractLsb' 0 8), a] := by
  show u.readC.trace ++ [.r8 .baudLow (u.uart.baud.extractLsb' 0 8)] ++ [a] = _
  rw [Peripheral.readC_trace]
  simp only [List.append_assoc, List.cons_append, List.nil_append]

/-- A split bus's two byte reads make up a value whose bits 11:0 are the stored ones (rules R51 and R52). -/
theorem splitBaud (free : BitVec 4) (b : BitVec 12) :
    let d : BitVec 16 := (free ++ b.extractLsb' 8 4) ++ b.extractLsb' 0 8
    d.extractLsb' 0 12 = b ∧ d.extractLsb' 0 8 = b.extractLsb' 0 8 ∧ d.extractLsb' 8 8 = free ++ b.extractLsb' 8 4 := by
  refine ⟨?_, BitVec.extractLsb'_append_eq_right, BitVec.extractLsb'_append_eq_left⟩
  have hd : ((free ++ b.extractLsb' 8 4) ++ b.extractLsb' 0 8 : BitVec 16) = free ++ b :=
    BitVec.append_assoc.trans (congrArg (free ++ ·) (baud_halves b))
  rw [hd, baudRead_low]

/-- The run up to the end of the last read. -/
theorem getconfig_to_end (hp : u.phase = .idle) (hc : u.params.cached = false) (hw : u.params.wf = true) :
    ∃ d x n p, d.extractLsb' 0 12 = u.uart.baud ∧ x.cfg = u.readC.x.cfg ∧
      actTimes (if u.params.bus = .split then 6 else 5) .getconfig u = readBackEnd d (u.readBack d x n p) := by
  cases hbus : u.params.bus with
  | whole =>
    refine ⟨Config.baudUnspecified u.freeCount ++ u.uart.baud, u.readC.x, u.freeCount + 1, .rbBaud, ?_, rfl, ?_⟩
    · exact baudRead_low _ _
    · refine (getconfig_to_baud 1 hp hc hw).trans <| (actTimes_one _ _).trans <|
        (getconfig_baud (u := u.readC) rfl hbus hw).trans ?_
      refine congrArg (readBackEnd _) ?_
      rw [Peripheral.readBack, ← Peripheral.readC_trace, hbus, Peripheral.emit, Peripheral.useFree]
      simp [baudReads, Peripheral.readC, Peripheral.readB, Peripheral.readA]
  | split =>
    obtain ⟨hd, hlow, hhigh⟩ := splitBaud (Config.baudUnspecified u.freeCount) u.uart.baud
    refine ⟨_, u.readLow.x, u.freeCount + 1, .rbBaudHigh, hd, rfl, ?_⟩
    have hstep : Instr.getconfig.act u.readC = .next u.readLow := getconfig_baudLow (u := u.readC) rfl hbus hw
    obtain ⟨hparams, huart, hfree⟩ := u.readLow_frame
    have hlast := getconfig_baudHigh (u := u.readLow) rfl (by rw [hparams]; exact hw)
    rw [hfree, huart, Uart.sawCtrlA_baud, Peripheral.readLow_tmp] at hlast
    refine (getconfig_to_baud 2 hp hc hw).trans <| (actTimes_of_act hstep).trans <| (actTimes_one _ _).trans <| hlast.trans ?_
    rw [Peripheral.readBack, hbus, baudReads, hlow, hhigh, ← Peripheral.readLow_trace, Peripheral.emit, Peripheral.useFree, hfree,
      huart, hparams]
    simp [Peripheral.readLow, Peripheral.readC, Peripheral.readB, Peripheral.readA]

/-- What the four reads assemble is the Configuration the registers hold (rules R90 and R96). -/
theorem unpack_readBack {d : BitVec 16} (hd : d.extractLsb' 0 12 = u.uart.baud) :
    Configuration.unpack (cfgFromBaud u.readC.x.cfg d) = u.uart.configuration := by
  refine (assembledConfigurationIsDecoded u.uart.ctrlA u.uart.ctrlB u.uart.ctrlC d).trans ?_
  have hbaud : (u.uart.baud.setWidth 16).extractLsb' 0 12 = u.uart.baud := by
    ext i hi
    simp [hi, show i < 16 by omega]
  rw [Uart.configuration, decCfg, decCfg, hd, hbaud]

end Getconfig

/-- Settles O35: the run up to the last read, then the decoder's two answers. -/
theorem getconfigReadsBack : Obligations.GetconfigReadsBack := by
  intro s hp hc hw u steps
  obtain ⟨d, x, n, p, hd, hx, hrun⟩ := getconfig_to_end hp hc hw
  have hcfg : Configuration.unpack (cfgFromBaud x.cfg d) = u.uart.configuration := hx ▸ unpack_readBack hd
  refine ⟨fun c hconf => ?_, fun hconf => ?_⟩
  · have hend := readBackEnd_valid (u := u.readBack d x n p) (hcfg.trans hconf)
    refine ⟨_, { x with tmp := d, cfg := cfgFromBaud x.cfg d }, d, n, execTimes_of_actTimes (hrun.trans hend), hd, ?_⟩
    rw [Peripheral.complete, ← hp, Peripheral.readBack]
    cases hbus : s.self.params.bus <;> rfl
  · exact execTimes_of_actTimes_fault (hrun.trans (readBackEnd_invalid (u := u.readBack d x n p) (hcfg.trans hconf)))

/-! ### GETCONFIG after CONFIGURE -/

theorem configured_configuration (v : Uart) (csz8 : BitVec 2) (c : Configuration) :
    (v.configured csz8 c).configuration = some c :=
  Uart.configuration_of_configured rfl rfl rfl rfl

/-- Settles O54: CONFIGURE leaves its operand in the cache and in the registers, the line side touches neither, and GETCONFIG
answers from the one or the other. -/
theorem getconfigReturnsWhatConfigureSet : Obligations.GetconfigReturnsWhatConfigureSet := by
  intro c s as hp hw split
  refine ⟨_, execTimes_of_actTimes (configure_run hp hw), ?_⟩
  intro t'
  have hconf : t'.self.uart.configuration = some c :=
    (Uart.configuration_lineActs _ _).trans (configured_configuration _ _ _)
  cases hc : s.self.params.cached with
  | true =>
    have hcache : t'.self.cache = c := if_pos hc
    have hact := getconfig_cached (u := t'.self) hp hc
    rw [hcache] at hact
    exact ⟨_, execTimes_of_actTimes ((actTimes_one _ _).trans hact), rfl, rfl, ⟨_, rfl⟩, rfl⟩
  | false =>
    obtain ⟨hread, _⟩ := getconfigReadsBack t' hp hc hw
    obtain ⟨r, x, d, n, hrun, _, rfl⟩ := hread c hconf
    exact ⟨_, hrun, rfl, hp, ⟨_, rfl⟩, rfl⟩

end Sys2Proof.Machine
end

section
/-! SUPPORT. Rule R44: runs of the machine in the reference environment: one step of a command in progress, and the acceptance of a
gated command. -/

namespace Sys2Proof.Machine

/-! ### The reference environment's turn -/

section Turn

variable {v : Uart} {held : List RxByte}

/-- The UART after a turn of the reference environment that holds `held`, and what it holds then. -/
def Uart.turned (v : Uart) (held : List RxByte) : Uart := v.lineActs (referenceActions v held).1

def Uart.heldAfter (v : Uart) (held : List RxByte) : List RxByte := (referenceActions v held).2

theorem Uart.turned_ctrlB (v : Uart) (held : List RxByte) : (v.turned held).ctrlB = v.ctrlB := Uart.lineActs_ctrlB _ _

theorem Uart.turned_rxen (h : v.rxen = true) : (v.turned held).rxen = true := (Uart.lineActs_rxen _ _).trans h

theorem Uart.turned_txen (h : v.txen = true) : (v.turned held).txen = true := (Uart.lineActs_txen _ _).trans h

theorem Uart.deliver_bempty (v : Uart) (b : Byte) (f o p : Bool) : (v.lineAct (.deliver b f o p)).bempty = v.bempty := by
  rw [Uart.lineAct]
  split <;> rfl

/-- BEMPTY is TXEN after every turn of the reference environment. -/
theorem Uart.turned_bempty (v : Uart) (held : List RxByte) : (v.turned held).bempty = v.txen := by
  obtain ⟨seen, hstatus⟩ := v.reference_status
  unfold Uart.turned referenceActions
  split <;> simp only [Uart.lineActs_cons, Uart.lineActs_nil, hstatus, Uart.deliver_bempty]
  rfl

/-- With RXEN 1 a turn leaves the stream as it is (log entry 10). -/
theorem Uart.turned_stream (h : v.rxen = true) : (v.turned held).rxStream (v.heldAfter held) = v.rxStream held :=
  Uart.reference_stream fun _ => h

/-- With RXEN 1 and a stream that has a byte, it waits after the turn, with its flags, and the rest is held. -/
theorem Uart.turned_head {r : RxByte} {rest : List RxByte} (h : v.rxen = true) (hs : v.rxStream held = r :: rest) :
    (v.turned held).waiting = some r.byte ∧ (v.turned held).ferr = r.ferr ∧ (v.turned held).ovr = r.ovr ∧
      (v.turned held).perr = r.perr ∧ v.heldAfter held = rest := by
  refine Uart.rxStream_cons ?_ ((Uart.turned_stream h).trans hs)
  rw [Uart.turned, Uart.reference_waiting fun _ => h, h, hs]
  rfl

end Turn

/-! ### A command in progress in the reference environment -/

/-- A peripheral in the reference environment: what a command in progress changes, over what it leaves alone. -/
def Peripheral.env (u : Peripheral) (x : Regs) (v : Uart) (held : List RxByte) (m : List Host.Cell) (t : List Access)
    (p : Phase) : Peripheral :=
  { u with phase := p, x := x, uart := v, line := .reference held, buffer := m, trace := t }

section Steps

variable {s : State} {u w : Peripheral} {i : Instr} {x : Regs} {v : Uart} {held : List RxByte} {m : List Host.Cell}
  {t : List Access} {p : Phase}

theorem run_of_step {s t : State} (h : step s = .next t) (n : Nat) : run (n + 1) s = run n t := by
  rw [run, h]; rfl

/-- With no turns listed, the next step is the line side's turn and the step of the command in progress. -/
theorem step_running (hturns : s.turns = []) (hp : s.self.phase ≠ .idle) (hi : decode s.self.x.cmd = .ok i)
    (h : i.act s.self.lineTurn = .next w) : step s = .next { s with self := w } := by
  obtain ⟨_, hrun, _⟩ := stepRunsTheCommand s
  rw [State.prepare_of_no_turns hturns] at hrun
  exact (hrun i hp hi).trans (exec_of_act h)

/-- With no turns listed, the next step in `IDLE` accepts the command at the port. -/
theorem step_accepting {c : HostCommand} {rest : List HostCommand} (hturns : s.turns = []) (hp : s.self.phase = .idle)
    (hport : s.self.port = c :: rest) (hi : decode c.word = .ok i) (h : i.act (s.self.lineTurn.accept c rest) = .next w) :
    step s = .next { s with self := w } := by
  obtain ⟨haccept, _⟩ := stepRunsTheCommand s
  rw [State.prepare_of_no_turns hturns] at haccept
  exact (haccept c rest i hp hport hi).trans (exec_of_act h)

/-- A step of a command in progress in the reference environment. -/
theorem run_env (hturns : s.turns = []) (hi : decode x.cmd = .ok i) (n : Nat)
    (h : i.act (u.env x (v.turned held) (v.heldAfter held) m t p) = .next w) (hp : p ≠ .idle := by decide) :
    run (n + 1) { s with self := u.env x v held m t p } = run n { s with self := w } :=
  run_of_step (step_running (s := { s with self := u.env x v held m t p }) hturns hp hi h) n

end Steps

/-! ### The acceptance of a gated command -/

/-- The bytes handed to DATA by an access are those of a write of DATA. -/
theorem txLog_append (t : List Access) (a : Access) : txLog (t ++ [a]) = txLog t ++ txLog [a] := by
  induction t with
  | nil => rfl
  | cons b t ih =>
    cases b with
    | w8 slot v => cases slot <;> simp only [List.cons_append, txLog, ih]
    | _ => simp only [List.cons_append, txLog, ih]

/-- A gated command presented with its buffer, its direction enabled, starts after the accepting step, or in the read-back
variant after the step of `GATE_B` (rules R21, R100 and R101): what has changed by then beside the port, the buffer and the working
registers is the line side's doing. -/
theorem run_gated {s : State} {i : Instr} {bytes : List Byte} {rest : List HostCommand} {stream : List RxByte}
    (hg : i.gated = true) (hwf : i.wf = true) (hturns : s.turns = []) (hline : s.self.line = .reference stream)
    (hp : s.self.phase = .idle) (hw : s.self.params.wf = true) (hport : s.self.port = ⟨encode i, some bytes⟩ :: rest)
    (hopen : i.direction.inCtrlB s.self.uart.ctrlB = true)
    (hcache : s.self.params.cached = true → i.direction.inCache s.self.cache = true) :
    ∃ x v held t p, (∀ n, run ((if s.self.params.cached then 1 else 2) + n) s = run n
        { s with self := i.started ({ s.self with port := rest }.env x v held (Memory.ofBytes bytes) t p) }) ∧
      decode x.cmd = .ok i ∧ v.ctrlB = s.self.uart.ctrlB ∧
      (s.self.uart.rxen = true → v.rxStream held = s.self.uart.rxStream stream) ∧ txLog t = txLog s.self.trace := by
  let base : Peripheral := { s.self with port := rest }
  let x : Regs := { s.self.x with cmd := encode i }
  let v := s.self.uart.turned stream
  let held := s.self.uart.heldAfter stream
  have hdecode : decode x.cmd = .ok i := decodeOfEncode i
  have haccept : s.self.lineTurn.accept ⟨encode i, some bytes⟩ rest =
      base.env x v held (Memory.ofBytes bytes) s.self.trace .idle := by
    unfold Peripheral.lineTurn Peripheral.env
    rw [hline, ← hp]
    rfl
  have hctrlB : v.ctrlB = s.self.uart.ctrlB := Uart.turned_ctrlB _ _
  have hstream (hon : s.self.uart.rxen = true) : v.rxStream held = s.self.uart.rxStream stream := Uart.turned_stream hon
  cases hc : s.self.params.cached with
  | true =>
    have hact := act_cacheOpen (u := base.env x v held (Memory.ofBytes bytes) s.self.trace .idle) hg hwf rfl hc (hcache hc)
    refine ⟨x, v, held, s.self.trace, .idle, fun n => ?_, hdecode, hctrlB, hstream, rfl⟩
    rw [if_pos rfl, Nat.add_comm]
    exact run_of_step (step_accepting hturns hp hport (decodeOfEncode i) (haccept ▸ hact)) n
  | false =>
    have hact := act_gateAhead (u := base.env x v held (Memory.ofBytes bytes) s.self.trace .idle) hg hwf rfl hc
    have hopen' : i.direction.inCtrlB (v.turned held).ctrlB = true := by rw [Uart.turned_ctrlB, hctrlB, hopen]
    have hgate := act_gateOpen (u := base.env x (v.turned held) (v.heldAfter held) (Memory.ofBytes bytes) s.self.trace .gateB)
      hg hwf rfl hc hw hopen'
    refine ⟨{ x with tmp := (v.turned held).ctrlB.setWidth 16 }, v.turned held, v.heldAfter held,
      s.self.trace ++ [.r8 .ctrlB (v.turned held).ctrlB], .gateB, fun n => ?_, hdecode, (Uart.turned_ctrlB _ _).trans hctrlB,
      fun hon => (Uart.turned_stream ((Uart.turned_rxen hon))).trans (hstream hon), ?_⟩
    · rw [if_neg (by decide), Nat.add_comm]
      exact (run_of_step (step_accepting hturns hp hport (decodeOfEncode i) (haccept ▸ hact)) (n + 1)).trans
        (run_env hturns hdecode n hgate)
    · rw [txLog_append]; exact List.append_nil _

end Sys2Proof.Machine
end

section
/-! SUPPORT. Rules R110 and R113: the runs of PUTN and PUTS in the reference environment, byte by byte. -/

namespace Sys2Proof.Machine

section Transmit

variable {s : State} {u : Peripheral} {i : Instr} {x : Regs} {v : Uart} {held : List RxByte} {t : List Access}

/-! ### The buffer of a run: the bytes moved so far, and those ahead -/

theorem Memory.read_ofBytes_append (pre : List Byte) (b : Byte) (suf : List Byte) :
    Memory.read (Memory.ofBytes (pre ++ b :: suf)) pre.length = some b := by
  rw [Memory.read_ofBytes]; simp

/-- From the buffer access to the write of DATA: the byte is read, and one poll finds the buffer empty (rules R103 and R44). -/
theorem run_fetch_poll {m : List Host.Cell} {b : Byte} (ht : i.transmits = true) (hturns : s.turns = [])
    (hi : decode x.cmd = .ok i) (hw : u.params.wf = true) (htx : v.txen = true)
    (hbuf : i.act (u.env x (v.turned held) (v.heldAfter held) m t .txnBuf) =
      .next (((u.env x (v.turned held) (v.heldAfter held) m t .txnBuf).fetched b).goto .txPoll)) :
    ∃ tmp v' held' t', (∀ n, run (n + 2) { s with self := u.env x v held m t .txnBuf } =
        run n { s with self := u.env { x with dbyte := b, tmp := tmp } v' held' m t' .txData }) ∧
      v'.txen = true ∧ txLog t' = txLog t := by
  let v₁ := v.turned held
  let held₁ := v.heldAfter held
  let v₂ := v₁.turned held₁
  have htx₁ : v₁.txen = true := Uart.turned_txen htx
  have hpoll := txPoll_ready (u := u.env { x with dbyte := b } v₂ (v₁.heldAfter held₁) m (t ++ [.br x.cnt b]) .txPoll) ht rfl
    hw ((Uart.turned_bempty v₁ held₁).trans htx₁)
  refine ⟨v₂.ctrlA.setWidth 16, v₂.sawCtrlA, v₁.heldAfter held₁, t ++ [.br x.cnt b] ++ [.r8 .ctrlA v₂.ctrlA], fun n => ?_,
    Uart.turned_txen htx₁, ?_⟩
  · exact (run_env hturns hi (n + 1) hbuf).trans (run_env (x := { x with dbyte := b }) hturns hi n hpoll)
  · rw [txLog_append, txLog_append]
    simp [txLog]

/-- The write of DATA (rules R35, R103). -/
theorem run_txData {m : List Host.Cell} {w : Peripheral} (hturns : s.turns = []) (hi : decode x.cmd = .ok i)
    (htx : v.txen = true)
    (hdata : (v.turned held).bempty = true → i.act (u.env x (v.turned held) (v.heldAfter held) m t .txData) = .next w)
    (n : Nat) : run (n + 1) { s with self := u.env x v held m t .txData } = run n { s with self := w } :=
  run_env hturns hi n (hdata ((Uart.turned_bempty _ _).trans htx))

theorem txLog_data (t : List Access) (b : Byte) : txLog (t ++ [.w8 .data b]) = txLog t ++ [b] := txLog_append _ _

/-! ### PUTN (rule R110) -/

/-- The loop test on the count that is reached, and on numbers. -/
theorem count_lt_iff {cnt lim : Len} {k : Nat} (hcnt : cnt.toNat = k) (hlim : k < lim.toNat) :
    (cnt + 1).toNat = k + 1 ∧ (cnt + 1 < lim ↔ k + 1 < lim.toNat) := by
  have hone : (cnt + 1).toNat = k + 1 := by
    rw [BitVec.toNat_add, hcnt]
    exact Nat.mod_eq_of_lt (by have := lim.isLt; simp; omega)
  exact ⟨hone, by rw [BitVec.lt_def, hone]⟩

/-- One byte of PUTN: three steps (rules R103 and R110). -/
theorem run_putn_byte {length : Len} {pre suf : List Byte} {b : Byte} (hturns : s.turns = []) (hw : u.params.wf = true)
    (hi : decode x.cmd = .ok (.putn length)) (htx : v.txen = true) (hcnt : x.cnt.toNat = pre.length) :
    ∃ tmp v' held' t',
      (∀ n, run (n + 3) { s with self := u.env x v held (Memory.ofBytes (pre ++ b :: suf)) t .txnBuf } =
        run n { s with self := (if x.cnt + 1 < x.lim
          then u.env { x with dbyte := b, tmp := tmp, cnt := x.cnt + 1 } v' held' (Memory.ofBytes (pre ++ b :: suf)) t' .txnBuf
          else (u.env { x with dbyte := b, tmp := tmp, cnt := x.cnt + 1 } v' held' (Memory.ofBytes (pre ++ b :: suf)) t'
            .txData).complete (Response.ofStatus x.err)) }) ∧
      v'.txen = true ∧ txLog t' = txLog t ++ [b] := by
  have hread : Memory.read (Memory.ofBytes (pre ++ b :: suf)) x.cnt.toNat = some b :=
    hcnt ▸ Memory.read_ofBytes_append pre b suf
  obtain ⟨tmp, v₂, held₂, t₂, hrun, htx₂, hlog⟩ := run_fetch_poll (held := held) (t := t) (i := .putn length) rfl hturns hi hw
    htx (putn_buf rfl hread)
  refine ⟨tmp, (v₂.turned held₂).handOver b, v₂.heldAfter held₂, t₂ ++ [.w8 .data b], fun n => ?_, Uart.turned_txen htx₂, ?_⟩
  · exact (hrun (n + 1)).trans (run_txData (x := { x with dbyte := b, tmp := tmp }) hturns hi htx₂
      (fun hb => putn_data rfl hw hb) n)
  · rw [txLog_data, hlog]

/-- PUTN from its loop test on, with `k + 1` bytes ahead: three steps each, and `NONE` after the last. -/
theorem run_putn_loop {length : Len} (hturns : s.turns = []) (hw : u.params.wf = true) (k : Nat) (pre suf : List Byte)
    (hi : decode x.cmd = .ok (.putn length)) (htx : v.txen = true) (herr : x.err = ErrorMask.none)
    (hcnt : x.cnt.toNat = pre.length) (hlim : x.lim.toNat = pre.length + (k + 1)) (hsuf : k + 1 ≤ suf.length) :
    ∃ x' v' held' t',
      run (3 * (k + 1)) { s with self := u.env x v held (Memory.ofBytes (pre ++ suf)) t .txnBuf } = .next { s with self :=
        ((u.env x' v' held' (Memory.ofBytes (pre ++ suf)) t' .txData).complete (Response.ofStatus ErrorMask.none)) } ∧
      txLog t' = txLog t ++ suf.take (k + 1) := by
  induction k generalizing pre suf x v held t with
  | zero =>
    cases suf with
    | nil => cases hsuf
    | cons b suf =>
      obtain ⟨tmp, v', held', t', hrun, _, hlog⟩ := run_putn_byte (held := held) (t := t) (b := b) (suf := suf) hturns hw hi
        htx hcnt
      obtain ⟨_, hlt⟩ := count_lt_iff hcnt (by omega : pre.length < x.lim.toNat)
      have hlast : ¬ x.cnt + 1 < x.lim := by rw [hlt]; omega
      refine ⟨{ x with dbyte := b, tmp := tmp, cnt := x.cnt + 1 }, v', held', t', (hrun 0).trans ?_, hlog⟩
      rw [if_neg hlast, herr]
      rfl
  | succ k ih =>
    cases suf with
    | nil => cases hsuf
    | cons b suf =>
      obtain ⟨tmp, v₁, held₁, t₁, hrun, htx₁, hlog⟩ := run_putn_byte (held := held) (t := t) (b := b) (suf := suf) hturns hw hi
        htx hcnt
      obtain ⟨hone, hlt⟩ := count_lt_iff hcnt (by omega : pre.length < x.lim.toNat)
      have hmore : x.cnt + 1 < x.lim := by rw [hlt]; omega
      rw [if_pos hmore] at hrun
      obtain ⟨x', v', held', t', hrest, hlog'⟩ := ih (held := held₁) (t := t₁)
        (x := { x with dbyte := b, tmp := tmp, cnt := x.cnt + 1 }) (pre ++ [b]) suf hi htx₁ herr
        (by simpa using hone) (by simpa using by omega) (by simpa using hsuf)
      rw [List.append_assoc, List.singleton_append] at hrest
      refine ⟨x', v', held', t', (hrun (3 * (k + 1))).trans hrest, ?_⟩
      rw [hlog', hlog, List.append_assoc]
      rfl

/-! ### PUTS (rule R113) -/

/-- One byte of PUTS before the 0x00: three steps (rules R103 and R113). -/
theorem run_puts_byte {pre suf : List Byte} {b : Byte} (hturns : s.turns = []) (hw : u.params.wf = true)
    (hi : decode x.cmd = .ok .puts) (htx : v.txen = true) (hcnt : x.cnt.toNat = pre.length) (hb : b ≠ 0x00)
    (hlast : x.cnt ≠ 0xFFFF) :
    ∃ tmp v' held' t',
      (∀ n, run (n + 3) { s with self := u.env x v held (Memory.ofBytes (pre ++ b :: suf)) t .txnBuf } = run n { s with self :=
        (u.env { x with dbyte := b, tmp := tmp, cnt := x.cnt + 1 } v' held' (Memory.ofBytes (pre ++ b :: suf)) t' .txnBuf) }) ∧
      v'.txen = true ∧ txLog t' = txLog t ++ [b] := by
  have hread : Memory.read (Memory.ofBytes (pre ++ b :: suf)) x.cnt.toNat = some b :=
    hcnt ▸ Memory.read_ofBytes_append pre b suf
  obtain ⟨tmp, v₂, held₂, t₂, hrun, htx₂, hlog⟩ := run_fetch_poll (held := held) (t := t) (i := .puts) rfl hturns hi hw htx
    ((puts_buf rfl hread).trans (by rw [if_neg hb]))
  refine ⟨tmp, (v₂.turned held₂).handOver b, v₂.heldAfter held₂, t₂ ++ [.w8 .data b], fun n => ?_, Uart.turned_txen htx₂, ?_⟩
  · exact (hrun (n + 1)).trans (run_txData (x := { x with dbyte := b, tmp := tmp }) hturns hi htx₂
      (fun hb => puts_data rfl hw hb hlast) n)
  · rw [txLog_data, hlog]

/-- PUTS with the rest of the string ahead: three steps a byte, and one that finds the 0x00. -/
theorem run_puts_loop (hturns : s.turns = []) (hw : u.params.wf = true) (str more pre : List Byte)
    (hi : decode x.cmd = .ok .puts) (htx : v.txen = true) (herr : x.err = ErrorMask.none)
    (hcnt : x.cnt.toNat = pre.length) (hstr : 0x00 ∉ str) (hlen : pre.length + str.length ≤ 0xFFFF) :
    ∃ x' v' held' t',
      run (3 * str.length + 1) { s with self := u.env x v held (Memory.ofBytes (pre ++ (str ++ 0x00 :: more))) t .txnBuf } =
        .next { s with self := ((u.env x' v' held' (Memory.ofBytes (pre ++ (str ++ 0x00 :: more))) t' .txnBuf).complete
          (Response.ofStatus ErrorMask.none)) } ∧
      txLog t' = txLog t ++ str := by
  induction str generalizing pre x v held t with
  | nil =>
    have hread : Memory.read (Memory.ofBytes (pre ++ 0x00 :: more)) x.cnt.toNat = some 0x00 :=
      hcnt ▸ Memory.read_ofBytes_append pre 0x00 more
    have hend := run_env (s := s) (u := u) (held := held) (t := t) (v := v) hturns hi 0 (puts_buf rfl hread)
    refine ⟨{ x with dbyte := 0x00 }, v.turned held, v.heldAfter held, t ++ [.br x.cnt 0x00], hend.trans ?_, ?_⟩
    · rw [if_pos rfl, ← herr]; rfl
    · rw [txLog_append]; rfl
  | cons b str ih =>
    obtain ⟨hb, hstr⟩ : 0x00 ≠ b ∧ 0x00 ∉ str := by simpa using hstr
    rw [List.length_cons] at hlen
    have hlast : x.cnt ≠ 0xFFFF := fun h => by
      rw [h] at hcnt
      have : (0xFFFF : Len).toNat = 0xFFFF := rfl
      omega
    obtain ⟨tmp, v₁, held₁, t₁, hrun, htx₁, hlog⟩ := run_puts_byte (s := s) (u := u) (held := held) (t := t)
      (suf := str ++ 0x00 :: more) hturns hw hi htx hcnt hb.symm hlast
    have hone : (x.cnt + 1).toNat = pre.length + 1 := by
      rw [BitVec.toNat_add, hcnt]
      exact Nat.mod_eq_of_lt (by simp; omega)
    obtain ⟨x', v', held', t', hrest, hlog'⟩ := ih (held := held₁) (t := t₁)
      (x := { x with dbyte := b, tmp := tmp, cnt := x.cnt + 1 }) (pre ++ [b]) hi htx₁ herr (by simpa using hone) hstr
      (by simpa using by omega)
    rw [List.append_assoc, List.singleton_append] at hrest
    refine ⟨x', v', held', t', (hrun (3 * str.length + 1)).trans hrest, ?_⟩
    rw [hlog', hlog, List.append_assoc]
    rfl

end Transmit

/-- Settles O50: the acceptance, then the loop over the buffer. -/
theorem putnSendsTheBuffer : Obligations.PutnSendsTheBuffer := by
  intro s length bytes rest stream hturns hline hp hw hport hlen htx hcache
  obtain ⟨x, v, held, t, p, hrun, hi, hctrlB, _, hlog⟩ := run_gated rfl rfl hturns hline hp hw hport htx hcache
  have htx' : v.txen = true := by rw [Uart.txen, hctrlB]; exact htx
  rw [hrun]
  by_cases hzero : length = 0
  · subst hzero
    refine ⟨_, rfl, rfl, rfl, ?_, rfl, rfl, rfl, rfl⟩
    exact hlog.trans (List.append_nil _).symm
  · obtain ⟨k, hk⟩ : ∃ k, length.toNat = k + 1 := Nat.exists_eq_succ_of_ne_zero fun h => hzero (BitVec.eq_of_toNat_eq h)
    obtain ⟨x', v', held', t', hloop, hlog'⟩ := run_putn_loop (s := s) (u := { s.self with port := rest }) (held := held) (t := t)
      (x := { x with lim := length, cnt := 0, err := 0 }) (v := v) hturns hw k [] bytes hi htx' rfl rfl (by simpa using hk)
      (by omega)
    have hstarted : (Instr.putn length).started ({ s.self with port := rest }.env x v held (Memory.ofBytes bytes) t p) =
        { s.self with port := rest }.env { x with lim := length, cnt := 0, err := 0 } v held (Memory.ofBytes bytes) t .txnBuf :=
      if_neg hzero
    rw [hstarted, hk]
    refine ⟨_, hloop, rfl, rfl, ?_, rfl, rfl, rfl, rfl⟩
    exact hlog'.trans (by rw [hlog])

/-- Settles O51: the acceptance, then the loop over the string. -/
theorem putsSendsTheString : Obligations.PutsSendsTheString := by
  intro s str more rest stream hturns hline hp hw hport hstr hlen htx hcache
  obtain ⟨x, v, held, t, p, hrun, hi, hctrlB, _, hlog⟩ := run_gated rfl rfl hturns hline hp hw hport htx hcache
  have htx' : v.txen = true := by rw [Uart.txen, hctrlB]; exact htx
  obtain ⟨x', v', held', t', hloop, hlog'⟩ := run_puts_loop (s := s) (u := { s.self with port := rest }) (held := held) (t := t)
    (x := { x with cnt := 0, err := 0 }) (v := v) hturns hw str more [] hi htx' rfl rfl hstr (by simpa using hlen)
  rw [Nat.add_assoc, hrun]
  refine ⟨_, hloop, rfl, rfl, ?_, rfl, rfl, rfl, rfl⟩
  exact hlog'.trans (by rw [hlog])

end Sys2Proof.Machine
end

section
/-! SUPPORT. Rules R111, R112, R114 and R115: the runs of GETN and GETS in the reference environment. The two loops are one: they
differ in the bytes after which they go on, and in how they end. -/

namespace Sys2Proof.Machine

/-! ### The bytes a receive loop takes -/

/-- At most `n` bytes of a stream, up to the first after which the loop does not go on, by its mask and its byte. -/
def takeThrough (go : Byte → Byte → Bool) : Nat → List RxByte → List RxByte
  | 0, _ => []
  | _, [] => []
  | n + 1, r :: rs => if go r.mask r.byte then r :: takeThrough go n rs else [r]

/-- GETN goes on after a byte without an error. -/
def goesOnGetn (mask _byte : Byte) : Bool := mask == ErrorMask.none

/-- GETS goes on after a byte without an error that is not the delimiter. -/
def goesOnGets (delimiter mask byte : Byte) : Bool := mask == ErrorMask.none && byte != delimiter

theorem takeUntilError_eq (n : Nat) (rs : List RxByte) : takeUntilError n rs = takeThrough goesOnGetn n rs := by
  induction n generalizing rs with
  | zero => rfl
  | succ n ih =>
    cases rs with
    | nil => rfl
    | cons r rs => simp only [takeUntilError, takeThrough, goesOnGetn, beq_iff_eq, ih]

theorem takeString_eq (delimiter : Byte) (n : Nat) (rs : List RxByte) :
    takeString delimiter n rs = takeThrough (goesOnGets delimiter) n rs := by
  induction n generalizing rs with
  | zero => rfl
  | succ n ih =>
    cases rs with
    | nil => rfl
    | cons r rs => simp only [takeString, takeThrough, goesOnGets, Bool.and_eq_true, beq_iff_eq, bne_iff_ne, ih]

section Taken

variable {go : Byte → Byte → Bool} {n : Nat} {r : RxByte}

theorem takeThrough_more (rest : List RxByte) (h : go r.mask r.byte = true) :
    takeThrough go (n + 1) (r :: rest) = r :: takeThrough go n rest := if_pos h

/-- The byte after which the loop stops, or for which alone there is room. -/
theorem takeThrough_last (rest : List RxByte) (h : ¬ (go r.mask r.byte = true ∧ 0 < n)) :
    takeThrough go (n + 1) (r :: rest) = [r] := by
  rw [takeThrough]
  split
  next hgo =>
    obtain rfl : n = 0 := by by_contra hn; exact h ⟨hgo, Nat.pos_of_ne_zero hn⟩
    rfl
  next => rfl

theorem takeThrough_length_le (go : Byte → Byte → Bool) (n : Nat) (rs : List RxByte) : (takeThrough go n rs).length ≤ n := by
  induction n generalizing rs with
  | zero => exact Nat.le_refl 0
  | succ n ih =>
    cases rs with
    | nil => exact Nat.zero_le _
    | cons r rs =>
      rw [takeThrough]
      split
      next => exact Nat.succ_le_succ (ih rs)
      next => exact Nat.succ_le_succ (Nat.zero_le n)

end Taken

theorem totalMask_cons {r : RxByte} (rs : List RxByte) (h : r.mask = ErrorMask.none) : totalMask (r :: rs) = totalMask rs := by
  rw [totalMask, List.foldl_cons, h, aggregate_none]; rfl

/-- A total mask that is not `NONE` comes from a byte with an error. -/
theorem exists_error_of_totalMask {rs : List RxByte} (h : totalMask rs ≠ 0) : ∃ r ∈ rs, r.mask ≠ ErrorMask.none := by
  induction rs with
  | nil => exact absurd rfl h
  | cons r rs ih =>
    by_cases hr : r.mask = ErrorMask.none
    · rw [totalMask_cons rs hr] at h
      obtain ⟨q, hq, he⟩ := ih h
      exact ⟨q, List.mem_cons_of_mem _ hq, he⟩
    · exact ⟨r, List.mem_cons_self, hr⟩

theorem totalMask_singleton (r : RxByte) : totalMask [r] = r.mask := none_aggregate _

/-! ### One byte -/

/-- The error flags of a byte, whatever the other bits of Control A are (rules R78 and R98). -/
theorem decErr_ctrlA {v : Uart} {r : RxByte} (hf : v.ferr = r.ferr) (ho : v.ovr = r.ovr) (hp : v.perr = r.perr) :
    decErr v.ctrlA = r.mask := by
  rw [Uart.ctrlA, hf, ho, hp, RxByte.mask]
  generalize v.waiting.isSome = a, v.txc = b, v.bempty = c, v.u2x = d, v.mpcm = e, r.ferr = f, r.ovr = g, r.perr = h
  revert a b c d e f g h
  decide

theorem Memory.write_cellsFrom (k : Nat) (pre : List Byte) (a b : Byte) (suf : List Byte) :
    Memory.write (Memory.cellsFrom k (pre ++ a :: suf)) (k + pre.length) b = Memory.cellsFrom k (pre ++ b :: suf) := by
  induction pre generalizing k with
  | nil => simp [Memory.cellsFrom, Memory.write]
  | cons c pre ih =>
    have hne : k ≠ k + (c :: pre).length := by simp
    have hidx : k + (c :: pre).length = k + 1 + pre.length := by simp; omega
    rw [List.cons_append, Memory.cellsFrom, Memory.write, if_neg hne, hidx, ih]
    rfl

/-- The byte at the end of the part already received is replaced. -/
theorem Memory.write_ofBytes (pre : List Byte) (a b : Byte) (suf : List Byte) :
    Memory.write (Memory.ofBytes (pre ++ a :: suf)) pre.length b = Memory.ofBytes (pre ++ b :: suf) := by
  have h := Memory.write_cellsFrom 0 pre a b suf
  rwa [Nat.zero_add] at h

section Receive

variable {s : State} {u : Peripheral} {i : Instr} {x : Regs} {v : Uart} {held : List RxByte} {m : List Host.Cell}
  {t : List Access} {r : RxByte} {rest : List RxByte}

/-- The three steps that take the head of the stream: the poll finds it, its flags are captured, then DATA is read (rules R104 and
R147). -/
theorem run_rx_byte (hr : i.receives = true) (hn : i ≠ .getc) (hwf : i.wf = true) (hturns : s.turns = [])
    (hi : decode x.cmd = .ok i) (hw : u.params.wf = true) (hon : v.rxen = true) (hs : v.rxStream held = r :: rest) :
    ∃ tmp v' held' t', (∀ n, run (n + 3) { s with self := u.env x v held m t .rxPoll } = run n { s with self :=
        (u.env { x with tmp := tmp, ebyte := r.mask, dbyte := r.byte } v' held' m t' .rxnBuf) }) ∧
      v'.rxen = true ∧ v'.rxStream held' = rest := by
  let v₁ := v.turned held
  let held₁ := v.heldAfter held
  have hon₁ : v₁.rxen = true := Uart.turned_rxen hon
  obtain ⟨hd₁, _⟩ := Uart.turned_head hon hs
  have hpoll := rxPoll_ready (u := u.env x v₁ held₁ m t .rxPoll) hr hwf rfl hw (by rw [show Peripheral.uart _ = v₁ from rfl, hd₁]; rfl)
  let v₂ := v₁.sawCtrlA.turned held₁
  let held₂ := v₁.sawCtrlA.heldAfter held₁
  have hs₁ : v₁.sawCtrlA.rxStream held₁ = r :: rest := (Uart.turned_stream hon).trans hs
  obtain ⟨hd₂, hf₂, ho₂, hp₂, _⟩ := Uart.turned_head (v := v₁.sawCtrlA) hon₁ hs₁
  have hon₂ : v₂.rxen = true := Uart.turned_rxen (v := v₁.sawCtrlA) hon₁
  have hflags : decErr v₂.ctrlA = r.mask := decErr_ctrlA hf₂ ho₂ hp₂
  let x₁ : Regs := { x with tmp := v₁.ctrlA.setWidth 16 }
  let t₁ := t ++ [.r8 .ctrlA v₁.ctrlA]
  have hcapture := act_rxErr_eq (u := u.env x₁ v₂ held₂ m t₁ .rxErr) hr hwf rfl hw
  let v₃ := v₂.sawCtrlA.turned held₂
  let held₃ := v₂.sawCtrlA.heldAfter held₂
  have hs₂ : v₂.sawCtrlA.rxStream held₂ = r :: rest := (Uart.turned_stream (v := v₁.sawCtrlA) hon₁).trans hs₁
  obtain ⟨hd₃, _, _, _, hrest⟩ := Uart.turned_head (v := v₂.sawCtrlA) hon₂ hs₂
  let x₂ : Regs := { x with tmp := v₂.ctrlA.setWidth 16, ebyte := decErr v₂.ctrlA }
  let t₂ := t₁ ++ [.r8 .ctrlA v₂.ctrlA]
  have hdata := act_rxData_eq (u := u.env x₂ v₃ held₃ m t₂ .rxData) hr hn hwf rfl hw hd₃
  refine ⟨r.byte.setWidth 16, v₃.consume, held₃, t₂ ++ [.r8 .data r.byte], fun n => ?_,
    Uart.turned_rxen (v := v₂.sawCtrlA) hon₂, hrest⟩
  refine (run_env hturns hi (n + 2) hpoll).trans <| (run_env (x := x₁) hturns hi (n + 1) hcapture).trans <|
    (run_env (x := x₂) hturns hi n hdata).trans ?_
  rw [← hflags]
  rfl

/-! ### The loop -/

/-- A receiving command with a loop: after which bytes it goes on, and what it does after the last (rules R111 and R112). -/
structure ReceivesInto (i : Instr) (go : Byte → Byte → Bool) (fin : Peripheral → Peripheral) : Prop where
  receives : i.receives = true
  loops : i ≠ .getc
  wf : i.wf = true
  error : ∀ mask byte, go mask byte = true → mask = ErrorMask.none
  buf : ∀ w : Peripheral, w.phase = .rxnBuf → (Memory.read w.buffer w.x.cnt.toNat).isSome = true → i.act w =
    .next (if go w.x.ebyte w.x.dbyte = true ∧ w.x.cnt + 1 < w.x.lim then w.stored.goto .rxPoll else fin w.stored)

/-- A receive loop at its poll: `pos` bytes received, room for `room` more, no error so far (rule R115). -/
structure AtPoll (i : Instr) (x : Regs) (v : Uart) (pos room : Nat) : Prop where
  cmd : decode x.cmd = .ok i
  rxen : v.rxen = true
  err : x.err = ErrorMask.none
  cnt : x.cnt.toNat = pos
  lim : x.lim.toNat = pos + room

variable {go : Byte → Byte → Bool} {fin : Peripheral → Peripheral} {n : Nat} {pre suf : List Byte}

/-- One byte of the loop: taken in three steps, stored in a fourth. -/
theorem run_rx_iteration {a : Byte} (h : ReceivesInto i go fin) (hturns : s.turns = []) (hw : u.params.wf = true)
    (hx : AtPoll i x v pre.length (n + 1)) (hs : v.rxStream held = r :: rest) :
    ∃ x' v' held' t',
      (∀ k, run (k + 4) { s with self := u.env x v held (Memory.ofBytes (pre ++ a :: suf)) t .rxPoll } =
        run k { s with self := (if go r.mask r.byte = true ∧ x.cnt + 1 < x.lim
          then u.env x' v' held' (Memory.ofBytes (pre ++ r.byte :: suf)) t' .rxPoll
          else fin (u.env x' v' held' (Memory.ofBytes (pre ++ r.byte :: suf)) t' .rxnBuf)) }) ∧
      decode x'.cmd = .ok i ∧ x'.lim = x.lim ∧ x'.cnt = x.cnt + 1 ∧ x'.err = r.mask ∧ v'.rxen = true ∧
      v'.rxStream held' = rest := by
  obtain ⟨tmp, v₁, held₁, t₁, hrun, hon₁, hs₁⟩ := run_rx_byte (s := s) (u := u) (m := Memory.ofBytes (pre ++ a :: suf)) (t := t)
    h.receives h.loops h.wf hturns hx.cmd hw hx.rxen hs
  let x₁ : Regs := { x with tmp := tmp, ebyte := r.mask, dbyte := r.byte }
  have hread : Memory.read (Memory.ofBytes (pre ++ a :: suf)) x₁.cnt.toNat = some a :=
    (congrArg _ hx.cnt).trans (Memory.read_ofBytes_append pre a suf)
  have hwrite : Memory.write (Memory.ofBytes (pre ++ a :: suf)) x₁.cnt.toNat r.byte = Memory.ofBytes (pre ++ r.byte :: suf) :=
    (congrArg (fun j => Memory.write _ j r.byte) hx.cnt).trans (Memory.write_ofBytes pre a r.byte suf)
  have herr : aggregate x.err r.mask = r.mask := by rw [hx.err, none_aggregate]
  let t₂ := t₁ ++ [.bw x.cnt r.byte]
  let before := u.env x₁ (v₁.turned held₁) (v₁.heldAfter held₁) (Memory.ofBytes (pre ++ a :: suf)) t₁ .rxnBuf
  have hact := h.buf before rfl (Option.isSome_iff_exists.2 ⟨a, hread⟩)
  have hstored : before.stored = u.env { x₁ with cnt := x.cnt + 1, err := r.mask } (v₁.turned held₁) (v₁.heldAfter held₁)
      (Memory.ofBytes (pre ++ r.byte :: suf)) t₂ .rxnBuf := by
    rw [← hwrite, ← herr]; rfl
  rw [hstored] at hact
  exact ⟨{ x₁ with cnt := x.cnt + 1, err := r.mask }, v₁.turned held₁, v₁.heldAfter held₁, t₂,
    fun k => (hrun (k + 1)).trans (run_env (x := x₁) hturns hx.cmd k hact), hx.cmd, rfl, rfl, rfl, Uart.turned_rxen hon₁,
    (Uart.turned_stream hon₁).trans hs₁⟩

/-- A receive loop from its poll on, with room for `n + 1` bytes: four steps each, then the command's end. -/
theorem run_rx_loop (h : ReceivesInto i go fin) (hturns : s.turns = []) (hw : u.params.wf = true) (n : Nat)
    (pre suf : List Byte) (hx : AtPoll i x v pre.length (n + 1)) (hsuf : n + 1 ≤ suf.length) :
    let got := takeThrough go (n + 1) (v.rxStream held)
    got.length = n + 1 ∨ (∃ r ∈ got, go r.mask r.byte = false) →
    ∃ x' v' held' t', (∀ k, run (4 * got.length + k) { s with self := u.env x v held (Memory.ofBytes (pre ++ suf)) t .rxPoll } =
        run k { s with self := fin (u.env x' v' held'
          (Memory.ofBytes (pre ++ (got.map RxByte.byte ++ suf.drop got.length))) t' .rxnBuf) }) ∧
      decode x'.cmd = .ok i ∧ x'.err = totalMask got ∧ x'.cnt.toNat = pre.length + got.length := by
  induction n using Nat.strong_induction_on generalizing x v held t pre suf with
  | _ n ih =>
  intro got hstop
  cases hs : v.rxStream held with
  | nil =>
    have hgot : got = [] := congrArg (takeThrough go (n + 1)) hs
    rw [hgot] at hstop
    obtain hlen | ⟨r, hr, _⟩ := hstop
    · cases hlen
    · cases hr
  | cons r rest =>
    cases suf with
    | nil => cases hsuf
    | cons a suf =>
      have hgot : got = takeThrough go (n + 1) (r :: rest) := congrArg (takeThrough go (n + 1)) hs
      obtain ⟨x₁, v₁, held₁, t₁, hrun, hcmd, hlim₁, hcnt₁, herr₁, hon₁, hs₁⟩ :=
        run_rx_iteration (t := t) (a := a) (suf := suf) h hturns hw hx hs
      obtain ⟨hone, hlt⟩ := count_lt_iff hx.cnt (by rw [hx.lim]; omega : pre.length < x.lim.toNat)
      have hroom : x.cnt + 1 < x.lim ↔ 0 < n := by rw [hlt, hx.lim]; omega
      by_cases hmore : go r.mask r.byte = true ∧ x.cnt + 1 < x.lim
      · obtain ⟨hgo, hlt⟩ := hmore
        obtain ⟨m, rfl⟩ : ∃ m, n = m + 1 := Nat.exists_eq_succ_of_ne_zero (hroom.1 hlt).ne'
        rw [takeThrough_more rest hgo, ← hs₁] at hgot
        have hstop' : (takeThrough go (m + 1) (v₁.rxStream held₁)).length = m + 1 ∨
            ∃ q ∈ takeThrough go (m + 1) (v₁.rxStream held₁), go q.mask q.byte = false := by
          rw [hgot] at hstop
          obtain hlen | ⟨q, hq, hno⟩ := hstop
          · exact .inl (Nat.succ.inj hlen)
          · obtain rfl | hq := List.mem_cons.1 hq
            · exact absurd (hgo.symm.trans hno) (by decide)
            · exact .inr ⟨q, hq, hno⟩
        have hx₁ : AtPoll i x₁ v₁ (pre ++ [r.byte]).length (m + 1) :=
          ⟨hcmd, hon₁, herr₁.trans (h.error _ _ hgo), by rw [hcnt₁, hone]; simp,
            by rw [hlim₁, hx.lim]; simp; omega⟩
        obtain ⟨x', v', held', t', hrest, hcmd', herr', hcnt'⟩ := ih m (by omega) (held := held₁) (t := t₁) (pre ++ [r.byte]) suf
          hx₁ (by simpa using hsuf) hstop'
        rw [if_pos ⟨hgo, hlt⟩] at hrun
        rw [List.append_assoc, List.append_assoc, List.singleton_append, List.singleton_append] at hrest
        rw [hgot]
        refine ⟨x', v', held', t', fun k => ?_, hcmd', ?_, ?_⟩
        · rw [List.length_cons, show ∀ j, 4 * (j + 1) + k = (4 * j + k) + 4 by intro j; omega]
          exact (hrun _).trans (hrest k)
        · rw [herr', totalMask_cons _ (h.error _ _ hgo)]
        · rw [hcnt', List.length_append, List.length_cons]; simp; omega
      · rw [takeThrough_last rest (by rwa [hroom] at hmore)] at hgot
        rw [if_neg hmore] at hrun
        rw [hgot]
        refine ⟨x₁, v₁, held₁, t₁, fun k => ?_, hcmd, ?_, ?_⟩
        · rw [Nat.add_comm]; exact hrun k
        · rw [herr₁, totalMask_singleton]
        · rw [hcnt₁, hone]; rfl

end Receive

/-! ### The two commands -/

theorem receivesInto_getn (length : Len) :
    ReceivesInto (.getn length) goesOnGetn (fun w => w.complete (Response.ofCount w.x.err w.x.cnt)) where
  receives := rfl
  loops := Instr.noConfusion
  wf := rfl
  error _ _ h := beq_iff_eq.1 h
  buf w hp hm := by simp only [goesOnGetn, beq_iff_eq]; exact getn_buf hp hm

theorem receivesInto_gets {capacity : Len} (delimiter : Byte) (hc : capacity ≠ 0) :
    ReceivesInto (.gets capacity delimiter) (goesOnGets delimiter) (fun w => w.goto .rxsTerm) where
  receives := rfl
  loops := Instr.noConfusion
  wf := by simpa [Instr.wf] using hc
  error mask byte h := by
    obtain ⟨hmask, _⟩ := Bool.and_eq_true_iff.1 h
    exact beq_iff_eq.1 hmask
  buf w hp hm := by
    simp only [goesOnGets, Bool.and_eq_true, beq_iff_eq, bne_iff_ne, and_assoc]
    rw [gets_buf hc hp hm]
    exact congrArg Host.Outcome.next (apply_ite w.stored.goto _ _ _)

/-- The count of a run, as its register holds it. -/
theorem count_eq {cnt : Len} {n : Nat} (h : cnt.toNat = n) : cnt = BitVec.ofNat 16 n := by
  rw [← h, BitVec.ofNat_toNat, BitVec.setWidth_eq]

/-- Settles O52: the acceptance, then the loop up to the first error or the length. -/
theorem getnReceivesUntilError : Obligations.GetnReceivesUntilError := by
  intro s length bytes rest stream hturns hline hp hw hport hlen hrx hcache got hstop
  obtain ⟨x, v, held, t, p, hrun, hi, hctrlB, hstream, _⟩ := run_gated rfl rfl hturns hline hp hw hport hrx hcache
  have hon : v.rxen = true := by rw [Uart.rxen, hctrlB]; exact hrx
  rw [hrun]
  by_cases hzero : length = 0
  · subst hzero
    exact ⟨_, rfl, rfl, rfl, rfl, rfl, rfl, rfl⟩
  · obtain ⟨n, hn⟩ : ∃ n, length.toNat = n + 1 := Nat.exists_eq_succ_of_ne_zero fun h => hzero (BitVec.eq_of_toNat_eq h)
    have hgot : got = takeThrough goesOnGetn (n + 1) (v.rxStream held) := by rw [hstream hrx, ← takeUntilError_eq, ← hn]
    have hstop' : got.length = n + 1 ∨ ∃ r ∈ got, goesOnGetn r.mask r.byte = false :=
      hstop.imp (fun h => h.trans hn) fun h =>
        have ⟨r, hr, he⟩ := exists_error_of_totalMask h
        ⟨r, hr, beq_eq_false_iff_ne.2 he⟩
    have hstarted : (Instr.getn length).started ({ s.self with port := rest }.env x v held (Memory.ofBytes bytes) t p) =
        { s.self with port := rest }.env { x with lim := length, cnt := 0, err := 0 } v held (Memory.ofBytes bytes) t .rxPoll :=
      if_neg hzero
    have hx : AtPoll (.getn length) { x with lim := length, cnt := 0, err := 0 } v ([] : List Byte).length (n + 1) :=
      ⟨hi, hon, rfl, rfl, by simpa using hn⟩
    obtain ⟨x', v', held', t', hloop, _, herr', hcnt'⟩ := run_rx_loop (s := s) (u := { s.self with port := rest }) (held := held)
      (t := t) (receivesInto_getn length) hturns hw n [] bytes hx (by omega) (hgot ▸ hstop')
    rw [hstarted]
    rw [← hgot] at hloop herr' hcnt'
    refine ⟨_, hloop 0, rfl, rfl, rfl, ?_, rfl, rfl⟩
    rw [← herr', ← count_eq (hcnt'.trans (Nat.zero_add _))]
    rfl

section Gets

variable {s : State} {u : Peripheral} {x : Regs} {v : Uart} {held : List RxByte} {t : List Access} {p : Phase}
  {capacity : Len} {delimiter : Byte} {bytes : List Byte}

/-- The terminator (rule R112). -/
theorem run_terminator {pre suf : List Byte} {a : Byte} (hc : capacity ≠ 0) (hturns : s.turns = [])
    (hi : decode x.cmd = .ok (.gets capacity delimiter)) (hcnt : x.cnt.toNat = pre.length) :
    run 1 { s with self := u.env x v held (Memory.ofBytes (pre ++ a :: suf)) t .rxsTerm } = .next { s with self :=
      ((u.env x (v.turned held) (v.heldAfter held) (Memory.ofBytes (pre ++ 0x00 :: suf)) (t ++ [.bw x.cnt 0x00])
        .rxsTerm).complete (Response.ofCount x.err x.cnt)) } := by
  have hread : Memory.read (Memory.ofBytes (pre ++ a :: suf)) x.cnt.toNat = some a :=
    hcnt ▸ Memory.read_ofBytes_append pre a suf
  have hact := gets_term (u := u.env x (v.turned held) (v.heldAfter held) (Memory.ofBytes (pre ++ a :: suf)) t .rxsTerm)
    (delimiter := delimiter) hc rfl (Option.isSome_iff_exists.2 ⟨a, hread⟩)
  refine (run_env hturns hi 0 hact).trans ?_
  rw [← Memory.write_ofBytes pre a 0x00 suf, ← hcnt]
  rfl

/-- GETS from its start to its terminator: at once where there is room for the terminator alone, else through the loop. -/
theorem run_gets_loop (hc : capacity ≠ 0) (hturns : s.turns = []) (hw : u.params.wf = true)
    (hi : decode x.cmd = .ok (.gets capacity delimiter)) (hon : v.rxen = true) (hlen : capacity.toNat ≤ bytes.length) :
    let got := takeThrough (goesOnGets delimiter) (capacity.toNat - 1) (v.rxStream held)
    got.length = capacity.toNat - 1 ∨ (∃ r ∈ got, goesOnGets delimiter r.mask r.byte = false) →
    ∃ x' v' held' t',
      run (4 * got.length + 1) { s with self :=
          ((Instr.gets capacity delimiter).started (u.env x v held (Memory.ofBytes bytes) t p)) } =
        run 1 { s with self := (u.env x' v' held' (Memory.ofBytes (got.map RxByte.byte ++ bytes.drop got.length)) t' .rxsTerm) } ∧
      decode x'.cmd = .ok (.gets capacity delimiter) ∧ x'.err = totalMask got ∧ x'.cnt.toNat = got.length := by
  intro got hstop
  let x₀ : Regs := { x with lim := capacity - 1, cnt := 0, err := 0 }
  have hlim : (capacity - 1).toNat = capacity.toNat - 1 := by
    have hpos : 0 < capacity := (BitVec.pos_iff_ne_zero capacity).2 hc
    revert hpos; bv_omega
  have hstarted : (Instr.gets capacity delimiter).started (u.env x v held (Memory.ofBytes bytes) t p) =
      u.env x₀ v held (Memory.ofBytes bytes) t (if capacity = 1 then .rxsTerm else .rxPoll) := rfl
  rw [hstarted]
  by_cases hone : capacity = 1
  · subst hone
    exact ⟨x₀, v, held, t, rfl, hi, rfl, rfl⟩
  · obtain ⟨n, hn⟩ : ∃ n, capacity.toNat - 1 = n + 1 := by
      refine Nat.exists_eq_succ_of_ne_zero fun h => hone ?_
      revert hc h; bv_omega
    rw [if_neg hone]
    have hx : AtPoll (.gets capacity delimiter) x₀ v ([] : List Byte).length (n + 1) :=
      ⟨hi, hon, rfl, rfl, by rw [← hn]; exact hlim.trans (Nat.zero_add _).symm⟩
    have hgot : got = takeThrough (goesOnGets delimiter) (n + 1) (v.rxStream held) := by rw [← hn]
    rw [hn, hgot] at hstop
    obtain ⟨x', v', held', t', hloop, hcmd', herr', hcnt'⟩ := run_rx_loop (s := s) (u := u) (t := t)
      (receivesInto_gets delimiter hc) hturns hw n [] bytes hx (by omega) hstop
    rw [hgot]
    exact ⟨x', v', held', t', hloop 1, hcmd', herr', hcnt'.trans (Nat.zero_add _)⟩

end Gets

/-- Settles O53: the acceptance, the loop up to an error, the delimiter or the capacity, and the terminator. -/
theorem getsReceivesAString : Obligations.GetsReceivesAString := by
  intro s capacity delimiter bytes rest stream hturns hline hp hw hport hc hlen hrx hcache got hstop
  have hwf : (Instr.gets capacity delimiter).wf = true := by simpa [Instr.wf] using hc
  obtain ⟨x, v, held, t, p, hrun, hi, hctrlB, hstream, _⟩ := run_gated rfl hwf hturns hline hp hw hport hrx hcache
  have hon : v.rxen = true := by rw [Uart.rxen, hctrlB]; exact hrx
  have hgot : got = takeThrough (goesOnGets delimiter) (capacity.toNat - 1) (v.rxStream held) := by
    rw [hstream hrx, ← takeString_eq]
  have hstop' : got.length = capacity.toNat - 1 ∨ ∃ r ∈ got, goesOnGets delimiter r.mask r.byte = false := by
    obtain hfull | herr | ⟨r, hr, hd⟩ := hstop
    · exact .inl hfull
    · obtain ⟨r, hr, he⟩ := exists_error_of_totalMask herr
      exact .inr ⟨r, hr, by simp [goesOnGets, he]⟩
    · exact .inr ⟨r, hr, by simp [goesOnGets, hd]⟩
  obtain ⟨x', v', held', t', hloop, hi', herr', hcnt'⟩ := run_gets_loop (s := s) (u := { s.self with port := rest }) (t := t)
    (p := p) hc hturns hw hi hon hlen (hgot ▸ hstop')
  rw [← hgot] at hloop herr' hcnt'
  have hroom : got.length < bytes.length := by
    have hle : got.length ≤ capacity.toNat - 1 := hgot ▸ takeThrough_length_le _ _ _
    have hpos : capacity.toNat ≠ 0 := fun h => hc (BitVec.eq_of_toNat_eq h)
    omega
  rw [List.drop_eq_getElem_cons hroom] at hloop
  have hend := run_terminator (s := s) (u := { s.self with port := rest }) (v := v') (held := held') (t := t')
    (pre := got.map RxByte.byte) (suf := bytes.drop (got.length + 1)) (a := bytes[got.length]) hc hturns hi' (by simpa using hcnt')
  rw [Nat.add_assoc, hrun]
  refine ⟨_, hloop.trans hend, rfl, rfl, rfl, ?_, rfl, rfl⟩
  rw [← herr', ← count_eq hcnt']
  rfl

end Sys2Proof.Machine
end
